-- ==== Sys2Proof/Word.lean ====
section
/-! DEFINITION. The bit-vector types of the part: what the spec itself treats as bits. Everything the spec counts, adds or
compares as a quantity (openings, levels, timers, numbers of steps) is a `Nat` or an `Int`. -/

-- One declaration after another: with the large stacks of the check, a thread for each theorem of the package exceeds its memory limit.
set_option Elab.async false

namespace Sys2Proof

/-- One byte of a frame or of the configuration image (R168, R181). -/
abbrev Byte := BitVec 8

/-- A sixteen-bit word as an input delivers it: an encoder count (R3), a transducer code (R15), a readback (R113). -/
abbrev Half := BitVec 16

end Sys2Proof
end

