-- ==== Sys2Proof/Config.lean ====
section
/-! DEFINITION. What an installation or the part itself fixes: the intervals fixed by the part (00_scope.md and the chapters)
and the type of an accepted configuration image (section 11.3, R184 and R188). The one free value is a sample that an
event takes and whose row carries no operand for it (log 37). -/

namespace Sys2Proof

namespace Config

/-- Control tick, ms (R1). -/
def tickMs : Nat := 60
/-- Level sample, ms (R15). -/
def sampleMs : Nat := 1000
/-- Peer age unit, ms (R37). -/
def ageMs : Nat := 10
/-- Encoder reply window, ms (R2). -/
def replyMs : Nat := 20
/-- Minimum gap between change-driven reports, ms (R44). -/
def gapMs : Nat := 50
/-- TX-blocked timer limit, ms (R173). -/
def txBlockedMs : Nat := 2000
/-- Wait before a new attempt at the image read, ms (R181). -/
def retryMs : Nat := 10
/-- Attempts at one image read (R181). -/
def maxAttempts : Nat := 4
/-- Milliseconds of one weir day (R61). -/
def dayMs : Nat := 86400000
/-- Days before the weir clock's day returns to 0 (R61). -/
def clockDays : Nat := 65536
/-- REPORT_PERIOD after a rejected image, ms (R49, R183). -/
def rejectedPeriodMs : Nat := 500
/-- Size of the configuration image in bytes (R181). -/
def imageBytes : Nat := 2048
/-- Depth of the step queue (R131). -/
def queueDepth : Nat := 8
/-- Depth of the loop stack and of the call stack (R125, R126). -/
def stackDepth : Nat := 4
/-- Codes that may be executed between two pushes (R128). -/
def spinLimit : Nat := 32
/-- The null code of a valve converter before trim (R112, R119). -/
def nullCode : Nat := 8192

/-- FREE VALUE: the `n`-th of the valve readback conversions that the evaluations of STALL take (R113; log 37). Nothing constrains it. -/
opaque freeReadback : Nat → Half

end Config

/-- The 26 parameters of section 11.3 (R184). -/
structure Params where
  openMax : Nat
  reportPeriod : Nat
  deadband : Nat
  announceWait : Nat
  moveLimit : Nat
  warnLead : Nat
  pumpWait : Nat
  spread : Nat
  hMin : Nat
  gateConstant : Nat
  kp : Nat
  ks : Nat
  valveTol : Nat
  stallTime : Nat
  skewTrip : Nat
  defaultSpeed : Nat
  localSpeed : Nat
  maintSpeed : Nat
  stormSpeed : Nat
  stormLevel : Int
  stormClearTime : Nat
  lvlOffset : Int
  lvlSpan : Nat
  headOpen : Int
  headClose : Int
  tideQualify : Nat
  deriving DecidableEq, Repr

/-- One entry of the layout (R182, R188); an absent neighbour is `none` (marker 255). -/
structure LayoutEntry where
  present : Bool
  left : Option Nat
  right : Option Nat
  deriving DecidableEq, Repr

/-- One code of the plan code table as the image holds it: the operation byte and three operand bytes (R122, R188). -/
structure RawCode where
  op : Nat
  a : Nat
  b : Nat
  c : Nat
  deriving DecidableEq, Repr

/-- Target kind of a step record (R122, R188). -/
inductive StepKind
  | empty | order | orderPct | abs | rel | closed | hold
  deriving DecidableEq, Repr

/-- One step record (R122). -/
structure StepRecord where
  kind : StepKind
  value : Int
  speed : Nat
  dwell : Nat
  tideWait : Bool
  holdPoint : Bool
  last : Bool
  deriving DecidableEq, Repr

/-- The content of an accepted configuration image, held until the next reset (R183, R188, R189). -/
structure Image where
  params : Params
  encZeroL : Nat
  encZeroR : Nat
  nullL : Int
  nullR : Int
  geometry : List Nat
  layout : List LayoutEntry
  authorities : List Nat
  directory : List (Option Nat)
  codes : List RawCode
  steps : List StepRecord
  deriving DecidableEq, Repr

end Sys2Proof
end

