-- ==== Sys2Proof/Syntax.lean ====
section
/-! DEFINITION. The events of spec/opcode_table.json, one constructor a row, with the operands an event carries: the samples of
the pins it reads, the reply, code or bytes it delivers. Operands are raw, as the environment delivers them; what a byte means is
the meaning's matter. -/

namespace Sys2Proof

/-- A side of the gate: an encoder, a valve, a cylinder (chapter 1, chapter 7). -/
inductive Side
  | left | right
  deriving DecidableEq, Repr

/-- A channel of the Level Unit (section 2.1). -/
inductive ChannelId
  | upstream | downstream
  deriving DecidableEq, Repr

/-- A block that evaluates once at each control tick (R1, R71, R88, R106, R123, R148). -/
inductive Block
  | position | mode | target | grant | drive | plan
  deriving DecidableEq, Repr

/-- Every block once. -/
def Block.all : List Block := [.position, .mode, .target, .grant, .drive, .plan]

/-- The request that an encoder's reply answers (R2): its side, and how many requests the Position Unit has sent to that side since, 0 for the
latest (log 38). -/
structure Request where
  side : Side
  later : Nat
  deriving DecidableEq, Repr

/-- A change of the level that the other nodes give the line (R167, R170, R173): `wait` ms after the change before it, to dominant or to
recessive. -/
structure LineChange where
  wait : Nat
  dominant : Bool
  deriving DecidableEq, Repr

/-- What one control tick samples at the gate side, and the order in which the blocks evaluate at this tick, which the spec leaves
open (R106, R134; log 5). A block named twice evaluates once, where it stands first; a block not named evaluates after the others. `line` is the
coming behaviour of the other nodes on the weir line, the changes of level that they make from this moment on, oldest first (log 40). -/
structure TickInputs where
  upperSwitch : Bool
  lowerSwitch : Bool
  maintKey : Bool
  localKey : Bool
  stormInput : Bool
  raise : Bool
  lower : Bool
  pumpReady : Bool
  readbackL : Half
  readbackR : Half
  order : List Block
  line : List LineChange := []
  deriving DecidableEq, Repr

/-- What a receiver finds wrong with a frame (R174): a dominant stop bit, the line idle before the last character, a LENGTH above
64, or a whole frame whose bytes show a fault at arrival. -/
inductive Reception
  | stopBitDominant
  | cutOff
  | lengthOver
  | arrived (bytes : List Byte)
  deriving DecidableEq, Repr

/-- The events of the part, one constructor per row of spec/opcode_table.json. -/
inductive Instr
  /-- POWER_ON_RESET (R180): `supply` says that the supply came up; else the reset input was asserted. -/
  | powerOnReset (supply : Bool)
  /-- RESET_END (R180): the reset ends with the straps as given. -/
  | resetEnd (straps : BitVec 4)
  /-- IMAGE_READ_FAILED (R181). -/
  | imageReadFailed
  /-- IMAGE_READ_RETRY (R181). -/
  | imageReadRetry
  /-- IMAGE_READ_COMPLETE (R182): the bytes transferred, and what acceptance samples at once (R183). -/
  | imageReadComplete (bytes : List Byte) (inputs : TickInputs) (upCode downCode : Half)
  /-- CONTROL_TICK (R1). -/
  | controlTick (inputs : TickInputs)
  /-- ENCODER_REPLY (R2, R3): the request that the reply answers; `verifies` is the parity or check. -/
  | encoderReply (request : Request) (raw : Half) (verifies : Bool)
  /-- REPLY_WINDOW (R2). -/
  | replyWindow (side : Side)
  /-- ENC_FAULT (R4). -/
  | encFault (side : Side)
  /-- ENC_RECOVERY (R4). -/
  | encRecovery (side : Side)
  /-- LEVEL_SAMPLE (R15). -/
  | levelSample (upCode downCode : Half)
  /-- LEVEL_FAULT (R17). -/
  | levelFault (channel : ChannelId)
  /-- LEVEL_RECOVERY (R17). -/
  | levelRecovery (channel : ChannelId)
  /-- TIDE_QUALIFIED (R24). -/
  | tideQualified
  /-- PEER_AGEING (R37). -/
  | peerAgeing
  /-- ORDER_FRAME (R54): SOURCE and payload as received. -/
  | orderFrame (source : Byte) (payload : List Byte)
  /-- RESUME (R64): the four bytes of the COMMAND frame but for its code, after SOURCE. -/
  | resume (source target argument tag : Byte)
  /-- FINISH_AT_HOLD (R65). -/
  | finishAtHold (source target argument tag : Byte)
  /-- TIDE_EVENT (R27). -/
  | tideEvent (source target argument tag : Byte)
  /-- ABANDON (R66). -/
  | abandon (source target argument tag : Byte)
  /-- CLEAR_FAULT (R163). -/
  | clearFault (source target argument tag : Byte)
  /-- CLEAR_COUNTS (R67). -/
  | clearCounts (source target argument tag : Byte)
  /-- RESTART (R68): with the straps, which the reset it makes samples at its end (R180). -/
  | restart (source target argument tag : Byte) (straps : BitVec 4)
  /-- UNKNOWN_COMMAND (R62): a COMMAND frame with a code that is none of the seven. -/
  | unknownCommand (source target code argument tag : Byte)
  /-- STATE_FRAME (R34). -/
  | stateFrame (source : Byte) (payload : List Byte)
  /-- TIDE_FRAME (R26). -/
  | tideFrame (source : Byte) (payload : List Byte)
  /-- FRAME_DROPPED (R174). -/
  | frameDropped (what : Reception)
  /-- DUPLICATE_CLEAR (R36). -/
  | duplicateClear
  /-- ALONE (R40). -/
  | alone
  /-- PERIODIC_REPORT (R42). -/
  | periodicReport
  /-- GAP_END (R44). -/
  | gapEnd
  /-- SEND_START (R170). -/
  | sendStart
  /-- LOST_ARBITRATION (R171): the bit of the frame, counted from 0, at which dominant was read. -/
  | lostArbitration (bit : Nat)
  /-- LINE_NOT_FOLLOWING (R171): the bit of the frame, counted from 0, at which recessive was read. -/
  | lineNotFollowing (bit : Nat)
  /-- FRAME_COMPLETE (R171). -/
  | frameComplete
  /-- TX_BLOCKED_TIMER (R173). -/
  | txBlockedTimer
  /-- DOMINANT_RUN (R173). -/
  | dominantRun
  /-- ANNOUNCE_WAIT (R94). -/
  | announceWait
  /-- WARN_LEAD (R97): PUMP_READY as sampled at that evaluation. -/
  | warnLead (pumpReady : Bool)
  /-- PUMP_WAIT (R98). -/
  | pumpWait
  /-- VALVE_MISMATCH (R113). -/
  | valveMismatch (side : Side)
  /-- STALL (R115). -/
  | stall
  /-- STORM_CLEAR_TIME (R156). -/
  | stormClearTime
  /-- DWELL_EXPIRED (R135). -/
  | dwellExpired
  /-- WEIR_CLOCK_DAY (R61). -/
  | weirClockDay
  /-- LINE_IDLE (R170). -/
  | lineIdle
  deriving DecidableEq, Repr

end Sys2Proof
end

