-- ==== Sys2Proof/Decode.lean ====
section
/-! DEFINITION. The events have no instruction bits: no row of spec/opcode_table.json gives any, so no word spells an event (log 24). -/

namespace Sys2Proof

/-- The event that a word spells by the table's bits: none, as the table has no bits. -/
def decodeTableWord (_nbits _w : Nat) : Option Instr := none

end Sys2Proof
end

