-- ==== Sys2Proof/Machine/Arith.lean ====
section
/-! DEFINITION. The arithmetic words of 00_scope.md (truncates, floor, isqrt, clamped, saturating) and the byte order of frames and
image (R185). -/

namespace Sys2Proof.Machine

/-- "Clamped to a..b" (00_scope.md), for integers. -/
def clampInt (lo hi x : Int) : Int := if x < lo then lo else if hi < x then hi else x

/-- "Clamped to a..b" (00_scope.md), for naturals. -/
def clampNat (lo hi x : Nat) : Nat := if x < lo then lo else if hi < x then hi else x

/-- "Saturating at m" (00_scope.md): one count up. -/
def countTo (m n : Nat) : Nat := if n < m then n + 1 else m

/-- trunc(a / b), toward zero (00_scope.md). -/
def truncDiv (a b : Int) : Int := Int.tdiv a b

/-- floor(a / b), toward minus infinity (00_scope.md). -/
def floorDiv (a b : Int) : Int := Int.fdiv a b

/-- The root found so far with the bits from `k` down still to try. -/
def isqrtFrom : Nat → Nat → Nat → Nat
  | 0, _, r => r
  | k + 1, n, r => if (r + 2 ^ k) * (r + 2 ^ k) ≤ n then isqrtFrom k n (r + 2 ^ k) else isqrtFrom k n r

/-- isqrt(x), the largest integer whose square does not exceed x (00_scope.md), for x below 2^64; R78 takes it of at most
29,999,000. -/
def isqrt (n : Nat) : Nat := isqrtFrom 32 n 0

/-- The sum of a list of levels (R18). -/
def sumInt (xs : List Int) : Int := xs.foldl (· + ·) 0

/-- A level into a list in ascending order, equal values kept (R20). -/
def insertSorted (x : Int) : List Int → List Int
  | [] => [x]
  | y :: ys => if x ≤ y then x :: y :: ys else y :: insertSorted x ys

/-- The levels in ascending order (R20). -/
def sortLevels (xs : List Int) : List Int := xs.foldr insertSorted []

/-- The median of R20: the middle value, or with an even count floor of the mean of the two middle values. -/
def median (xs : List Int) : Option Int :=
  if xs.length = 0 then none
  else if xs.length % 2 = 1 then (sortLevels xs)[xs.length / 2]?
  else some (floorDiv ((sortLevels xs).getD (xs.length / 2 - 1) 0 + (sortLevels xs).getD (xs.length / 2) 0) 2)

/-! ### Bytes, high byte first (R185) -/

/-- One byte. -/
def byteOf (n : Nat) : Byte := BitVec.ofNat 8 n

/-- A value of two bytes. -/
def bytes2 (n : Nat) : List Byte := [byteOf (n / 256), byteOf n]

/-- A value of four bytes. -/
def bytes4 (n : Nat) : List Byte := [byteOf (n / 16777216), byteOf (n / 65536), byteOf (n / 256), byteOf n]

/-- A signed value of two bytes, two's complement. -/
def signedBytes2 (x : Int) : List Byte := bytes2 (BitVec.ofInt 16 x).toNat

/-- A signed value of four bytes, two's complement. -/
def signedBytes4 (x : Int) : List Byte := bytes4 (BitVec.ofInt 32 x).toNat

/-- The byte at an offset. -/
def byteAt (bs : List Byte) (i : Nat) : Nat := (bs.getD i 0).toNat

/-- The two-byte value at an offset. -/
def half (bs : List Byte) (i : Nat) : Nat := byteAt bs i * 256 + byteAt bs (i + 1)

/-- The four-byte value at an offset. -/
def word (bs : List Byte) (i : Nat) : Nat := half bs i * 65536 + half bs (i + 2)

/-- The signed two-byte value at an offset. -/
def signedHalf (bs : List Byte) (i : Nat) : Int := (BitVec.ofNat 16 (half bs i)).toInt

/-- The signed four-byte value at an offset. -/
def signedWord (bs : List Byte) (i : Nat) : Int := (BitVec.ofNat 32 (word bs i)).toInt

/-- Flag bit `i` of a flag byte, bit 0 upward (R185). -/
def flagOf (b i : Nat) : Bool := b.testBit i

/-- A flag byte from its flags, bit 0 first (R185). -/
def flagByte (fs : List Bool) : Nat := fs.foldr (fun f acc => f.toNat + 2 * acc) 0

/-! ### The check word (R169) -/

/-- One bit taken into the check register: compare with the top bit, shift, combine with 1021h if the two differed. -/
def checkBit (reg : BitVec 16) (bit : Bool) : BitVec 16 :=
  if reg.msb != bit then (reg <<< 1) ^^^ 0x1021#16 else reg <<< 1

/-- One byte, most significant bit first. -/
def checkByte (reg : BitVec 16) (b : Byte) : BitVec 16 :=
  [7, 6, 5, 4, 3, 2, 1, 0].foldl (fun r i => checkBit r (b.getLsbD i)) reg

/-- The check word over a run of bytes (R169): the register begins at all ones and there is no final inversion. -/
def checkWord (bs : List Byte) : BitVec 16 := bs.foldl checkByte 0xFFFF#16

end Sys2Proof.Machine
end

