-- ==== Sys2Proof/Machine/State.lean ====
section
/-! DEFINITION. The state of the station, block by block as the spec's chapters own it, the outcome types, and the state after
reset. The comment of a field names the rule that gives it. A fault condition has one home: it is active exactly while its kind
stands in `ModeCtl.active` (R160). -/

namespace Sys2Proof.Machine

/-! ### Names -/

/-- The station's mode (R149); `loc` is LOCAL. -/
inductive Mode
  | start | auto | loc | maint | storm | fault
  deriving DecidableEq, Repr

/-- Move state (section 6.1). -/
inductive MoveState
  | still | want | warn | moving
  deriving DecidableEq, Repr

/-- Kind of the present claim (section 6.1). -/
inductive MoveKind
  | noClaim | granted | bypass
  deriving DecidableEq, Repr

/-- Plan state (R139). -/
inductive PlanState
  | idle | running | held | ended | failed
  deriving DecidableEq, Repr

/-- Phase of the current step (section 8.6). -/
inductive Phase
  | aim | dwell | tide | done
  deriving DecidableEq, Repr

/-- Where a HELD plan continues (section 8.2). -/
inductive ResumePoint
  | current | next
  deriving DecidableEq, Repr

/-- Tide window (section 2.5). -/
inductive Window
  | undecided | opened | closed
  deriving DecidableEq, Repr

/-- Kind of a tide event: OPEN or CLOSE (section 2.5). -/
inductive TideKind
  | opens | closes
  deriving DecidableEq, Repr

/-- Origin of a tide event (section 2.5). -/
inductive TideOrigin
  | detected | manual | peer
  deriving DecidableEq, Repr

/-- Source of a level used (R19). -/
inductive LevelSource
  | own | peer | absent
  deriving DecidableEq, Repr

/-- Freshness class of a filled peer row (R37); an EMPTY row is no row at all. -/
inductive Freshness
  | fresh | stale | lost
  deriving DecidableEq, Repr

/-- Kind of an adopted order (section 4.1). -/
inductive OrderKind
  | discharge | opening | close
  deriving DecidableEq, Repr

/-- Result of a command (R63). -/
inductive CommandResult
  | done | refusedAuthority | refusedState | unknown
  deriving DecidableEq, Repr

/-- Where the last tick's target came from (R72); `unset` is NONE. -/
inductive DemandSource
  | unset | step | track | buttons | storm | hold
  deriving DecidableEq, Repr

/-- Why the last tick's target was a hold (R73). -/
inductive HoldReason
  | order | plan | head | button | mode
  deriving DecidableEq, Repr

/-- Speed class (R72, R108). -/
inductive SpeedClass
  | step (speed : Nat)
  | standard | loc | maint | storm
  deriving DecidableEq, Repr

/-- The opening recorded when the current step began (R80). -/
inductive StepStart
  | absent | pending
  | recorded (opening : Nat)
  deriving DecidableEq, Repr

/-- Kind of the last reset (R180). -/
inductive RestartCause
  | power | pin | restart
  deriving DecidableEq, Repr

/-- The fifteen fault kinds, in the kind order of R159. -/
inductive FaultKind
  | config | duplicate | encL | encR | travel | skew | valveL | valveR | stall | pump | alone | txBlocked | levelUp | levelDn | planBad
  deriving DecidableEq, Repr

/-- A set of fault kinds, one bit a kind, numbered as STATE numbers them (R185). -/
abbrev FaultSet := BitVec 16

/-! ### Records -/

/-- Image validity with the image an ACCEPTED one holds (R180, R183). -/
inductive ImageState
  | unread
  | accepted (img : Image)
  | rejected
  deriving DecidableEq, Repr

/-- Configuration Loader (section 11.1). -/
structure Loader where
  /-- strap number (R180) -/
  strap : Nat
  /-- image validity and content (R183) -/
  image : ImageState
  /-- read attempts made (R181) -/
  attempts : Nat
  /-- a read attempt is in progress (R181) -/
  reading : Bool
  /-- the wait before the next attempt, ms (R181) -/
  retryTimer : Option Nat
  /-- restart cause of the last reset (R180) -/
  cause : RestartCause
  /-- the reset still lasts (R180) -/
  inReset : Bool
  deriving DecidableEq, Repr

/-- One encoder side (section 1.1). -/
structure EncoderSide where
  /-- last good count (R3) -/
  lastCount : Option Nat
  /-- failure run (R4) -/
  failRun : Nat
  /-- good run (R4) -/
  goodRun : Nat
  /-- side opening (R6) -/
  sideOpening : Nat
  /-- age of the read in progress, ms (R2) -/
  readTimer : Option Nat
  deriving DecidableEq, Repr

/-- Position Unit (section 1.1). -/
structure Position where
  left : EncoderSide
  right : EncoderSide
  /-- gate opening (R7) -/
  opening : Nat
  /-- skew (R7) -/
  skew : Int
  /-- position established (R8) -/
  established : Bool
  /-- upper limit sample, as the other blocks read it (R9, R10) -/
  upper : Bool
  /-- lower limit sample, as the other blocks read it (R9, R10) -/
  lower : Bool
  /-- the samples taken at the latest tick, which stand from the end of that tick's evaluation on (R9, R10; log 8) -/
  upperTaken : Bool
  lowerTaken : Bool
  deriving DecidableEq, Repr

/-- One level channel (section 2.1). -/
structure Channel where
  /-- last good samples, oldest first (R18) -/
  ring : List Int
  /-- rail run (R17) -/
  railRun : Nat
  /-- good run (R17) -/
  goodRun : Nat
  /-- filtered level (R18) -/
  filtered : Option Int
  /-- level used (R19) -/
  used : Option Int
  /-- level source (R19) -/
  source : LevelSource
  deriving DecidableEq, Repr

/-- Level Unit (section 2.1). -/
structure LevelUnit where
  up : Channel
  dn : Channel
  /-- head (R21) -/
  head : Option Int
  deriving DecidableEq, Repr

/-- Tide Monitor (section 2.5). -/
structure Tide where
  /-- tide window -/
  window : Window
  /-- candidate counter (R24) -/
  candidate : Nat
  /-- TIDE_BLIND (R25) -/
  blind : Bool
  /-- expected kind (R31) -/
  expected : TideKind
  /-- tide latch (R30) -/
  latch : Bool
  deriving DecidableEq, Repr

/-- The content of a filled row of the Peer Table: its fields but the age (section 3.1). -/
structure PeerRow where
  freshness : Freshness
  period : Nat
  moveState : MoveState
  ticket : Nat
  available : Bool
  isolated : Bool
  opening : Nat
  upLevel : Option Int
  upOwn : Bool
  dnLevel : Option Int
  dnOwn : Bool
  keyNumber : Nat
  keyOrigin : Nat
  deriving DecidableEq, Repr

/-- A row of the Peer Table (section 3.1): its age in 10 ms units, which every row has (R37, R48), and its content, `none` in an EMPTY row
(R33). -/
structure TableRow where
  age : Nat
  content : Option PeerRow
  deriving DecidableEq, Repr

/-- Peer Table: sixteen rows addressed by station number (R33), and the duplicate timer (R36). -/
structure Peers where
  rows : List TableRow
  duplicateTimer : Option Nat
  deriving DecidableEq, Repr

/-- An order record (section 4.1). -/
structure Order where
  number : Nat
  origin : Nat
  kind : OrderKind
  value : Nat
  plan : Option Nat
  mask : BitVec 16
  halt : Bool
  storm : Bool
  tideLock : Bool
  restartPlan : Bool
  deriving DecidableEq, Repr

/-- The last-command record (R63): the bytes as received, and the result. -/
structure CommandRecord where
  source : Nat
  tag : Nat
  code : Nat
  result : CommandResult
  deriving DecidableEq, Repr

/-- Order Unit (section 4.1). -/
structure OrderUnit where
  /-- adopted order, `none` for order none (R69) -/
  adopted : Option Order
  /-- last-command record (R63) -/
  lastCommand : Option CommandRecord
  /-- deferred plan action pending (R58) -/
  deferred : Bool
  /-- weir clock: day (R61) -/
  clockDay : Nat
  /-- weir clock: millisecond of day (R61) -/
  clockMs : Nat
  deriving DecidableEq, Repr

/-- Target Unit (section 5.1, R84). -/
structure Target where
  effective : Nat
  unclamped : Nat
  source : DemandSource
  reason : Option HoldReason
  /-- hold opening, `none` while pending (R73) -/
  holdOpening : Option Nat
  stepStart : StepStart
  available : Bool
  share : Nat
  shareUnmet : Bool
  limited : Bool
  speed : SpeedClass
  /-- off-target indication (R84) -/
  offTarget : Bool
  /-- clamped indication (R84) -/
  clamped : Bool
  deriving DecidableEq, Repr

/-- Grant Unit (section 6.1): a stopped timer is `none`, a running one its age in ms. -/
structure Grant where
  moveState : MoveState
  moveKind : MoveKind
  ticket : Nat
  announceTimer : Option Nat
  warnTimer : Option Nat
  /-- the lead the warn timer runs out, ms (R90, R97) -/
  warnLead : Nat
  pumpTimer : Option Nat
  /-- horn output (R89) -/
  horn : Bool
  /-- pump run output (R89) -/
  pumpRun : Bool
  /-- drive enable output (R89) -/
  driveEnable : Bool
  deriving DecidableEq, Repr

/-- A running stall window (R115). -/
structure StallWindow where
  age : Nat
  startOpening : Nat
  deriving DecidableEq, Repr

/-- Drive Unit (section 7.1). -/
structure Drive where
  /-- setpoint, µm (R107) -/
  setpoint : Nat
  /-- base command (R110) -/
  base : Int
  /-- valve commands (R111) -/
  cmdL : Int
  cmdR : Int
  /-- converter codes (R112) -/
  codeL : Nat
  codeR : Nat
  /-- mismatch runs (R113) -/
  runL : Nat
  runR : Nat
  /-- stall window (R115) -/
  stall : Option StallWindow
  deriving DecidableEq, Repr

/-- A loop frame: body address and remaining count, `none` for FOREVER (R125). -/
structure LoopFrame where
  body : Nat
  remaining : Option Nat
  deriving DecidableEq, Repr

/-- The group cursor (R124). -/
structure Cursor where
  index : Nat
  first : Nat
  last : Nat
  remaining : Nat
  deriving DecidableEq, Repr

/-- The interpreter state (section 8.2). -/
structure Interp where
  codePtr : Nat
  /-- innermost first -/
  loops : List LoopFrame
  /-- innermost first -/
  calls : List Nat
  cursor : Option Cursor
  ended : Bool
  spin : Nat
  deriving DecidableEq, Repr

/-- Plan Sequencer (section 8.2). -/
structure Plan where
  state : PlanState
  number : Option Nat
  interp : Interp
  queue : List Nat
  current : Option Nat
  phase : Phase
  dwell : Nat
  finishAtHold : Bool
  resume : Option ResumePoint
  /-- a Target Unit evaluation was made after this AIM phase began (R134) -/
  aimJudged : Bool
  deriving DecidableEq, Repr

/-- The storm save (R155). -/
structure StormSave where
  state : PlanState
  number : Option Nat
  interp : Interp
  queue : List Nat
  current : Option Nat
  phase : Phase
  dwell : Nat
  expected : TideKind
  deriving DecidableEq, Repr

/-- The first-fault record (R162). -/
structure FirstFault where
  kind : FaultKind
  day : Nat
  ms : Nat
  deriving DecidableEq, Repr

/-- Mode Controller (chapter 9). -/
structure ModeCtl where
  mode : Mode
  /-- MAINT key sample (R148) -/
  maintKey : Bool
  /-- LOCAL/REMOTE key sample at LOCAL (R148) -/
  localKey : Bool
  /-- STORM input sample (R148) -/
  stormInput : Bool
  /-- storm conditions (R154) -/
  condOrder : Bool
  condInput : Bool
  condLevel : Bool
  /-- storm clear timer (R156) -/
  stormClear : Option Nat
  /-- storm save (R155) -/
  save : Option StormSave
  /-- active fault set (R160) -/
  active : FaultSet
  /-- latched fault set (R161) -/
  latched : FaultSet
  /-- first-fault record (R162) -/
  firstFault : Option FirstFault
  /-- fault relay output (R151) -/
  relay : Bool
  deriving DecidableEq, Repr

/-- The content of a STATE frame (R177), at the codes the wire carries where R185 numbers them. -/
structure StateFrame where
  mode : Mode
  moveState : MoveState
  ticket : Nat
  bypass : Bool
  available : Bool
  isolated : Bool
  limited : Bool
  shareUnmet : Bool
  tideBlind : Bool
  alone : Bool
  stormPending : Bool
  planState : PlanState
  /-- 255 for none -/
  planNumber : Nat
  /-- 255 for no step -/
  stepIndex : Nat
  opening : Nat
  skew : Int
  effective : Nat
  unclamped : Nat
  upLevel : Option Int
  dnLevel : Option Int
  upOwn : Bool
  dnOwn : Bool
  window : Window
  orderNumber : Nat
  orderOrigin : Nat
  /-- 0 for none (R185) -/
  orderKind : Nat
  orderValue : Nat
  /-- 255 for none -/
  orderPlan : Nat
  orderMask : BitVec 16
  halt : Bool
  storm : Bool
  tideLock : Bool
  restartPlan : Bool
  reportPeriod : Nat
  latched : FaultSet
  /-- bit number + 1, 0 for none (R185) -/
  firstKind : Nat
  firstDay : Nat
  firstMs : Nat
  commandSource : Nat
  commandTag : Nat
  commandCode : Nat
  /-- 0 for empty (R185) -/
  commandResult : Nat
  errors : Nat
  /-- 0 for none (R185) -/
  cause : Nat
  deriving DecidableEq, Repr

/-- The record of a tide event, the content of a TIDE frame (R178). -/
structure TideRecord where
  kind : TideKind
  origin : TideOrigin
  day : Nat
  ms : Nat
  head : Option Int
  deriving DecidableEq, Repr

/-- A frame this station sends (section 10.6). -/
inductive OutFrame
  | state (f : StateFrame)
  | tide (r : TideRecord)
  deriving DecidableEq, Repr

/-- Line Interface (chapter 10) with the reporting schedule it keeps (section 3.6). -/
structure Line where
  /-- pending slots (R172) -/
  stateSlot : Option StateFrame
  tideSlot : Option TideRecord
  /-- the frame this station has on the line (R171) -/
  sending : Option OutFrame
  /-- a tide event has replaced the TIDE frame that is on the line (R172) -/
  tideReplaced : Bool
  /-- the line is idle (R170) -/
  idle : Bool
  /-- the receiver takes nothing before the line is next idle (R174) -/
  awaitIdle : Bool
  /-- receive error counter (R175) -/
  errors : Nat
  /-- TX-blocked timer (R173), and that it has reached its limit -/
  txTimer : Option Nat
  txExpired : Bool
  /-- dominant run (R173) -/
  dominantRun : Option Nat
  /-- the model's own: the changes of level that the other nodes are to make on the line, the first `wait` ms from now (log 40) -/
  changes : List LineChange
  /-- line-silent timer (R40) -/
  lineSilent : Nat
  /-- report timer (R42), that it has reached REPORT_PERIOD since the last completion, and that its report still waits (R172) -/
  reportTimer : Option Nat
  reportFired : Bool
  periodicDue : Bool
  /-- gap timer (R44) -/
  gapTimer : Nat
  /-- pending-change mark (R43) -/
  mark : Bool
  /-- restart cause to be carried (R46) -/
  causeToCarry : Option RestartCause
  deriving DecidableEq, Repr

/-- The model's own clocks: ms since the last control tick, level sample and ageing step (R1, R15, R37; logs 1 and 11). Each of the
last three says up to which moment after the last tick the block has made its evaluations ahead of the tick itself: 0, but where a row of
the block's own timer has made that of a coming tick (R88, R106, R123; log 26); then the count of the free samples taken (log 37). -/
structure Clocks where
  tick : Nat
  sample : Nat
  age : Nat
  grantAhead : Nat
  driveAhead : Nat
  planAhead : Nat
  freeSamples : Nat
  deriving DecidableEq, Repr

/-- The state of the station. `pending` is the queue of events that wait, first in, first out. -/
structure State where
  loader : Loader
  position : Position
  level : LevelUnit
  tide : Tide
  peers : Peers
  order : OrderUnit
  target : Target
  grant : Grant
  drive : Drive
  plan : Plan
  modeCtl : ModeCtl
  line : Line
  clocks : Clocks
  pending : List Instr
  deriving DecidableEq, Repr

/-- The faults that stop the machine: none. The part's own fault kinds (R159) are state, and no event stops the part: in FAULT it
goes on sampling, reporting and answering (R1, R15, R51). So nothing raises a `Fault`, which is safe. -/
inductive Fault
  deriving DecidableEq, Repr

/-- The refusals: an event without a meaning in the model. -/
inductive Refusal
  /-- Raised by `exec` alone, for an event whose arm gives it no meaning yet. Safe: the machine stops. No arm does so. -/
  | notModelled (mnemonic : String)
  deriving DecidableEq, Repr

/-! ### Named updates, one a block -/

namespace State

def withLoader (s : State) (x : Loader) : State := { s with loader := x }
def withPosition (s : State) (x : Position) : State := { s with position := x }
def withLevel (s : State) (x : LevelUnit) : State := { s with level := x }
def withTide (s : State) (x : Tide) : State := { s with tide := x }
def withPeers (s : State) (x : Peers) : State := { s with peers := x }
def withOrder (s : State) (x : OrderUnit) : State := { s with order := x }
def withTarget (s : State) (x : Target) : State := { s with target := x }
def withGrant (s : State) (x : Grant) : State := { s with grant := x }
def withDrive (s : State) (x : Drive) : State := { s with drive := x }
def withPlan (s : State) (x : Plan) : State := { s with plan := x }
def withModeCtl (s : State) (x : ModeCtl) : State := { s with modeCtl := x }
def withLine (s : State) (x : Line) : State := { s with line := x }
def withClocks (s : State) (x : Clocks) : State := { s with clocks := x }
def withPending (s : State) (x : List Instr) : State := { s with pending := x }

end State

/-! ### Reset -/

/-- The interpreter state when cleared (R129, R141, R147). -/
def Interp.cleared : Interp := { codePtr := 0, loops := [], calls := [], cursor := none, ended := false, spin := 0 }

/-- An encoder side after reset (R13). -/
def EncoderSide.initial : EncoderSide :=
  { lastCount := none, failRun := 0, goodRun := 0, sideOpening := 0, readTimer := none }

/-- A level channel after reset (R22). -/
def Channel.initial : Channel :=
  { ring := [], railRun := 0, goodRun := 0, filtered := none, used := none, source := .absent }

/-- A row after reset: EMPTY, with no content and age 0 (R48). -/
def TableRow.initial : TableRow := { age := 0, content := none }

/-- The state every kind of reset brings about (R13, R22, R32, R48, R69, R86, R104, R120, R147, R165, R179, R180): `cause` and
`lasts` say which reset it is and whether it still lasts, `straps` the strap number, which only a reset that has ended has sampled. -/
def State.initial (cause : RestartCause) (lasts : Bool) (straps : Nat) : State where
  loader :=
    { strap := straps, image := .unread, attempts := 0, reading := !lasts, retryTimer := none, cause := cause, inReset := lasts }
  position :=
    { left := .initial, right := .initial, opening := 0, skew := 0, established := false, upper := false, lower := false,
      upperTaken := false, lowerTaken := false }
  level := { up := .initial, dn := .initial, head := none }
  tide := { window := .undecided, candidate := 0, blind := false, expected := .opens, latch := false }
  peers := { rows := List.replicate 16 .initial, duplicateTimer := none }
  order := { adopted := none, lastCommand := none, deferred := false, clockDay := 0, clockMs := 0 }
  target :=
    { effective := 0, unclamped := 0, source := .unset, reason := none, holdOpening := none, stepStart := .absent,
      available := false, share := 0, shareUnmet := false, limited := false, speed := .standard, offTarget := false,
      clamped := false }
  grant :=
    { moveState := .still, moveKind := .noClaim, ticket := 0, announceTimer := none, warnTimer := none, warnLead := 0,
      pumpTimer := none, horn := false, pumpRun := false, driveEnable := false }
  drive :=
    { setpoint := 0, base := 0, cmdL := 0, cmdR := 0, codeL := 8192, codeR := 8192, runL := 0, runR := 0, stall := none }
  plan :=
    { state := .idle, number := none, interp := .cleared, queue := [], current := none, phase := .aim, dwell := 0,
      finishAtHold := false, resume := none, aimJudged := false }
  modeCtl :=
    { mode := .start, maintKey := false, localKey := false, stormInput := false, condOrder := false, condInput := false,
      condLevel := false, stormClear := none, save := none, active := 0, latched := 0, firstFault := none, relay := false }
  line :=
    { stateSlot := none, tideSlot := none, sending := none, tideReplaced := false, idle := true, awaitIdle := false,
      errors := 0, txTimer := none, txExpired := false, dominantRun := none, changes := [], lineSilent := 0, reportTimer := none,
      reportFired := false, periodicDue := false, gapTimer := 50, mark := false, causeToCarry := some cause }
  clocks := { tick := 0, sample := 0, age := 0, grantAhead := 0, driveAhead := 0, planAhead := 0, freeSamples := 0 }
  pending := []

/-- The machine right after reset: a power-on reset has brought every block to its initial state and still lasts, so the first
event that acts is its end (RESET_END, R180). Its restart cause is POWER. No event waits. -/
def State.reset : State := State.initial .power true 0

end Sys2Proof.Machine
end

