-- ==== Sys2Proof/Machine/Flags.lean ====
section
/-! DEFINITION. The fault kinds with their classes and bit numbers, and the fault sets (R159, R160, R161, R185). -/

namespace Sys2Proof.Machine

/-- Bit number of a fault kind, in the kind order of R159 (R185). -/
def faultBit : FaultKind → Nat
  | .config => 0
  | .duplicate => 1
  | .encL => 2
  | .encR => 3
  | .travel => 4
  | .skew => 5
  | .valveL => 6
  | .valveR => 7
  | .stall => 8
  | .pump => 9
  | .alone => 10
  | .txBlocked => 11
  | .levelUp => 12
  | .levelDn => 13
  | .planBad => 14

/-- A stop-class kind takes the station to FAULT (R159). -/
def isStopClass (k : FaultKind) : Bool := faultBit k ≤ 9

/-- The set of the stop-class kinds. -/
def stopClassSet : FaultSet := 0x03FF#16

/-- The kind stands in the set. -/
def hasFault (k : FaultKind) (f : FaultSet) : Bool := f.getLsbD (faultBit k)

/-- The set of one kind. -/
def onlyFault (k : FaultKind) : FaultSet := BitVec.twoPow 16 (faultBit k)

/-- A kind enters a set. -/
def addFault (k : FaultKind) (f : FaultSet) : FaultSet := f ||| onlyFault k

/-- A kind leaves a set. -/
def dropFault (k : FaultKind) (f : FaultSet) : FaultSet := f &&& ~~~ onlyFault k

/-- The set holds a stop-class kind (R161). -/
def hasStopClass (f : FaultSet) : Bool := (f &&& stopClassSet) != 0

/-- The encoder fault kind of a side (R4). -/
def encoderKind : Side → FaultKind
  | .left => .encL
  | .right => .encR

/-- The valve fault kind of a side (R113). -/
def valveKind : Side → FaultKind
  | .left => .valveL
  | .right => .valveR

/-- The fault kind of a level channel (section 2.1). -/
def channelKind : ChannelId → FaultKind
  | .upstream => .levelUp
  | .downstream => .levelDn

end Sys2Proof.Machine
end

