-- ==== Sys2Proof/Machine/Operands.lean ====
section
/-! DEFINITION. What the bytes of frames and image mean: the codes of R185, the payloads of R186 and R187, the frame envelope and
its bits (R167 to R169), and the configuration image with its checks (R182, R184, R188). -/

namespace Sys2Proof.Machine

/-! ### Codes (R185) -/

def modeCode : Mode → Nat
  | .start => 0
  | .auto => 1
  | .loc => 2
  | .maint => 3
  | .storm => 4
  | .fault => 5

def modeOfCode : Nat → Option Mode
  | 0 => some .start
  | 1 => some .auto
  | 2 => some .loc
  | 3 => some .maint
  | 4 => some .storm
  | 5 => some .fault
  | _ => none

def moveStateCode : MoveState → Nat
  | .still => 0
  | .want => 1
  | .warn => 2
  | .moving => 3

def moveStateOfCode : Nat → Option MoveState
  | 0 => some .still
  | 1 => some .want
  | 2 => some .warn
  | 3 => some .moving
  | _ => none

def planStateCode : PlanState → Nat
  | .idle => 0
  | .running => 1
  | .held => 2
  | .ended => 3
  | .failed => 4

def planStateOfCode : Nat → Option PlanState
  | 0 => some .idle
  | 1 => some .running
  | 2 => some .held
  | 3 => some .ended
  | 4 => some .failed
  | _ => none

def windowCode : Window → Nat
  | .undecided => 0
  | .opened => 1
  | .closed => 2

def windowOfCode : Nat → Option Window
  | 0 => some .undecided
  | 1 => some .opened
  | 2 => some .closed
  | _ => none

def orderKindCode : OrderKind → Nat
  | .discharge => 1
  | .opening => 2
  | .close => 3

def orderKindOfCode : Nat → Option OrderKind
  | 1 => some .discharge
  | 2 => some .opening
  | 3 => some .close
  | _ => none

def resultCode : CommandResult → Nat
  | .done => 1
  | .refusedAuthority => 2
  | .refusedState => 3
  | .unknown => 4

def tideKindCode : TideKind → Nat
  | .opens => 1
  | .closes => 2

def tideKindOfCode : Nat → Option TideKind
  | 1 => some .opens
  | 2 => some .closes
  | _ => none

def tideOriginCode : TideOrigin → Nat
  | .detected => 1
  | .manual => 2
  | .peer => 3

def tideOriginOfCode : Nat → Option TideOrigin
  | 1 => some .detected
  | 2 => some .manual
  | 3 => some .peer
  | _ => none

def causeCode : Option RestartCause → Nat
  | none => 0
  | some .power => 1
  | some .pin => 2
  | some .restart => 3

/-- Command codes of the seven commands (R185). -/
def codeResume : Nat := 1
def codeFinishAtHold : Nat := 2
def codeTideEvent : Nat := 3
def codeAbandon : Nat := 4
def codeClearFault : Nat := 5
def codeClearCounts : Nat := 6
def codeRestart : Nat := 7

/-- The code is one of the seven commands (R62). -/
def isCommandCode (c : Nat) : Bool := 1 ≤ c && c ≤ 7

/-- A plan, step or neighbour byte, 255 for none (R185). -/
def optOf255 (n : Nat) : Option Nat := if n = 255 then none else some n

def optTo255 (o : Option Nat) : Nat := o.getD 255

/-- A level field: 80000000h is the absent marker (R185). -/
def levelOf (bs : List Byte) (i : Nat) : Option Int := if word bs i = 0x80000000 then none else some (signedWord bs i)

def levelBytes : Option Int → List Byte
  | none => bytes4 0x80000000
  | some x => signedBytes4 x

/-- A head field: 8000h is the absent marker (R185). -/
def headOf (bs : List Byte) (i : Nat) : Option Int := if half bs i = 0x8000 then none else some (signedHalf bs i)

def headBytes : Option Int → List Byte
  | none => bytes2 0x8000
  | some x => signedBytes2 x

/-! ### Payloads -/

/-- Frame kinds (R168). -/
def kindOrder : Nat := 1
def kindCommand : Nat := 2
def kindState : Nat := 3
def kindTide : Nat := 4

/-- The one payload length of a frame kind (R185). -/
def payloadLength (kind : Nat) : Nat :=
  if kind = kindOrder then 17
  else if kind = kindCommand then 4
  else if kind = kindState then 55
  else 10

/-- An order as offered, before R52 to R55 are applied. -/
structure OfferedOrder where
  number : Nat
  origin : Nat
  kindCode : Nat
  value : Nat
  plan : Nat
  mask : BitVec 16
  flags : Nat
  deriving DecidableEq, Repr

/-- The order of an ORDER payload (R186), whose origin is the frame's SOURCE (R54). -/
def orderOfPayload (source : Nat) (p : List Byte) : OfferedOrder :=
  { number := word p 0, origin := source, kindCode := byteAt p 4, value := half p 5, plan := byteAt p 7,
    mask := BitVec.ofNat 16 (half p 8), flags := byteAt p 10 }

/-- The weir time of an ORDER payload: day and millisecond (R186). -/
def weirTimeOfPayload (p : List Byte) : Nat × Nat := (half p 11, word p 13)

/-- The TIDE payload of an event record (R186). -/
def tidePayload (r : TideRecord) : List Byte :=
  [byteOf (tideKindCode r.kind), byteOf (tideOriginCode r.origin)] ++ bytes2 r.day ++ bytes4 r.ms ++ headBytes r.head

/-- The event record of a TIDE payload; none when its length, kind or origin will not do (R174, R185). -/
def tideOfPayload (p : List Byte) : Option TideRecord :=
  if p.length = 10 then
    match tideKindOfCode (byteAt p 0), tideOriginOfCode (byteAt p 1) with
    | some k, some o => some { kind := k, origin := o, day := half p 2, ms := word p 4, head := headOf p 8 }
    | _, _ => none
  else none

/-- The flag byte of a STATE payload (R187). -/
def stateFlags (f : StateFrame) : Nat :=
  flagByte [f.bypass, f.available, f.isolated, f.limited, f.shareUnmet, f.tideBlind, f.alone, f.stormPending]

/-- The order flag byte (R185). -/
def orderFlags (halt storm tideLock restartPlan : Bool) : Nat := flagByte [halt, storm, tideLock, restartPlan]

/-- The STATE payload of a frame content (R187). -/
def statePayload (f : StateFrame) : List Byte :=
  [byteOf (modeCode f.mode), byteOf (moveStateCode f.moveState)] ++ bytes2 f.ticket ++ [byteOf (stateFlags f)] ++
    [byteOf (planStateCode f.planState), byteOf f.planNumber, byteOf f.stepIndex] ++
    bytes2 f.opening ++ signedBytes2 f.skew ++ bytes2 f.effective ++ bytes2 f.unclamped ++
    levelBytes f.upLevel ++ levelBytes f.dnLevel ++ [byteOf (flagByte [f.upOwn, f.dnOwn]), byteOf (windowCode f.window)] ++
    bytes4 f.orderNumber ++ [byteOf f.orderOrigin, byteOf f.orderKind] ++ bytes2 f.orderValue ++ [byteOf f.orderPlan] ++
    bytes2 f.orderMask.toNat ++ [byteOf (orderFlags f.halt f.storm f.tideLock f.restartPlan)] ++
    bytes2 f.reportPeriod ++ bytes2 f.latched.toNat ++ [byteOf f.firstKind] ++ bytes2 f.firstDay ++ bytes4 f.firstMs ++
    [byteOf f.commandSource, byteOf f.commandTag, byteOf f.commandCode, byteOf f.commandResult] ++
    [byteOf f.errors, byteOf f.cause]

/-- The content of a STATE payload; none when its length will not do or a mode, move state, plan state or tide window byte lies
outside its table (R174, R185). -/
def stateOfPayload (p : List Byte) : Option StateFrame :=
  if p.length = 55 then
    match modeOfCode (byteAt p 0), moveStateOfCode (byteAt p 1), planStateOfCode (byteAt p 5), windowOfCode (byteAt p 25) with
    | some m, some mv, some ps, some w =>
      some
        { mode := m, moveState := mv, ticket := half p 2,
          bypass := flagOf (byteAt p 4) 0, available := flagOf (byteAt p 4) 1, isolated := flagOf (byteAt p 4) 2,
          limited := flagOf (byteAt p 4) 3, shareUnmet := flagOf (byteAt p 4) 4, tideBlind := flagOf (byteAt p 4) 5,
          alone := flagOf (byteAt p 4) 6, stormPending := flagOf (byteAt p 4) 7,
          planState := ps, planNumber := byteAt p 6, stepIndex := byteAt p 7, opening := half p 8, skew := signedHalf p 10,
          effective := half p 12, unclamped := half p 14, upLevel := levelOf p 16, dnLevel := levelOf p 20,
          upOwn := flagOf (byteAt p 24) 0, dnOwn := flagOf (byteAt p 24) 1, window := w,
          orderNumber := word p 26, orderOrigin := byteAt p 30, orderKind := byteAt p 31, orderValue := half p 32,
          orderPlan := byteAt p 34, orderMask := BitVec.ofNat 16 (half p 35),
          halt := flagOf (byteAt p 37) 0, storm := flagOf (byteAt p 37) 1, tideLock := flagOf (byteAt p 37) 2,
          restartPlan := flagOf (byteAt p 37) 3,
          reportPeriod := half p 38, latched := BitVec.ofNat 16 (half p 40), firstKind := byteAt p 42, firstDay := half p 43,
          firstMs := word p 45, commandSource := byteAt p 49, commandTag := byteAt p 50, commandCode := byteAt p 51,
          commandResult := byteAt p 52, errors := byteAt p 53, cause := byteAt p 54 }
    | _, _, _, _ => none
  else none

/-- The order a STATE echoes (R57, R177). -/
def echoOf (f : StateFrame) : OfferedOrder :=
  { number := f.orderNumber, origin := f.orderOrigin, kindCode := f.orderKind, value := f.orderValue, plan := f.orderPlan,
    mask := f.orderMask, flags := orderFlags f.halt f.storm f.tideLock f.restartPlan }

/-! ### The envelope (R168, R169) and the bits of a frame (R167, R168) -/

/-- A whole frame: KIND, SOURCE, LENGTH, payload, CHECK high byte first (R168). -/
def frameBytes (kind source : Nat) (payload : List Byte) : List Byte :=
  [byteOf kind, byteOf source, byteOf payload.length] ++ payload ++
    bytes2 (checkWord ([byteOf kind, byteOf source, byteOf payload.length] ++ payload)).toNat

/-- The fault a whole frame shows at arrival, if any (R174, R185): a LENGTH that is not the number of payload bytes or not the one
length of the kind, a check word that differs, a KIND other than 1..4, a SOURCE above 23, or a code outside its table. -/
def arrivalFault (bs : List Byte) : Bool :=
  let n := bs.length - 5
  let payload := (bs.drop 3).take n
  bs.length < 5 || byteAt bs 2 != n ||
    (checkWord (bs.take (n + 3))).toNat != half bs (n + 3) ||
    !(1 ≤ byteAt bs 0 && byteAt bs 0 ≤ 4) || 23 < byteAt bs 1 ||
    n != payloadLength (byteAt bs 0) ||
    (byteAt bs 0 == kindState && (stateOfPayload payload).isNone) ||
    (byteAt bs 0 == kindTide && (tideOfPayload payload).isNone)

/-- The ten bits of a character, true for recessive: start bit, eight data bits, stop bit (R167); the two characters of the
arbitration field go out most significant bit first, the others least significant bit first (R168). -/
def characterBits (reversed : Bool) (b : Byte) : List Bool :=
  let data := [0, 1, 2, 3, 4, 5, 6, 7].map b.getLsbD
  [false] ++ (if reversed then data.reverse else data) ++ [true]

/-- The bits of a frame in the order they are sent. -/
def wireBits : List Byte → List Bool
  | kind :: source :: rest => characterBits true kind ++ characterBits true source ++ rest.flatMap (characterBits false)
  | bs => bs.flatMap (characterBits true)

/-- The bytes of a frame this station sends, with its own number as SOURCE (section 10.6, R189). -/
def outFrameBytes (source : Nat) : OutFrame → List Byte
  | .state f => frameBytes kindState source (statePayload f)
  | .tide r => frameBytes kindTide source (tidePayload r)

/-! ### The configuration image (R184, R188) -/

/-- The signed four-byte parameters, in the order of section 11.3. -/
def wordsOf : Nat → List Byte → List Int
  | 0, _ => []
  | n + 1, bs => signedWord bs 0 :: wordsOf n (bs.drop 4)

/-- `n` two-byte values. -/
def halvesOf : Nat → List Byte → List Nat
  | 0, _ => []
  | n + 1, bs => half bs 0 :: halvesOf n (bs.drop 2)

/-- `n` bytes. -/
def bytesOf : Nat → List Byte → List Nat
  | 0, _ => []
  | n + 1, bs => byteAt bs 0 :: bytesOf n (bs.drop 1)

/-- A layout entry as its three bytes. -/
structure RawLayout where
  present : Nat
  left : Nat
  right : Nat
  deriving DecidableEq, Repr

def layoutOf : Nat → List Byte → List RawLayout
  | 0, _ => []
  | n + 1, bs => { present := byteAt bs 0, left := byteAt bs 1, right := byteAt bs 2 } :: layoutOf n (bs.drop 3)

def codesOf : Nat → List Byte → List RawCode
  | 0, _ => []
  | n + 1, bs => { op := byteAt bs 0, a := byteAt bs 1, b := byteAt bs 2, c := byteAt bs 3 } :: codesOf n (bs.drop 4)

/-- A step record as its fields stand in the image. -/
structure RawStep where
  kind : Nat
  value : Int
  speed : Nat
  dwell : Nat
  flags : Nat
  deriving DecidableEq, Repr

def stepsOf : Nat → List Byte → List RawStep
  | 0, _ => []
  | n + 1, bs =>
    { kind := byteAt bs 0, value := signedHalf bs 1, speed := half bs 3, dwell := half bs 5, flags := byteAt bs 7 } ::
      stepsOf n (bs.drop 8)

/-- The image as its bytes give it, before the checks of R182. -/
structure RawImage where
  format : Nat
  params : List Int
  zeros : List Nat
  nulls : List Int
  geometry : List Nat
  layout : List RawLayout
  authorities : List Nat
  directory : List Nat
  codes : List RawCode
  steps : List RawStep
  deriving DecidableEq, Repr

/-- The content at the offsets of R188. -/
def rawImageOf (bs : List Byte) : RawImage where
  format := byteAt bs 0
  params := wordsOf 26 (bs.drop 1)
  zeros := halvesOf 2 (bs.drop 105)
  nulls := [signedHalf (bs.drop 109) 0, signedHalf (bs.drop 109) 2]
  geometry := halvesOf 17 (bs.drop 113)
  layout := layoutOf 16 (bs.drop 147)
  authorities := bytesOf 8 (bs.drop 195)
  directory := bytesOf 16 (bs.drop 203)
  codes := codesOf 64 (bs.drop 219)
  steps := stepsOf 128 (bs.drop 475)

/-- Check word of the image (R182). -/
def imageCheckWordGood (bs : List Byte) : Bool := (checkWord (bs.take 2046)).toNat == half (bs.drop 2046) 0

/-- `lo ≤ x ≤ hi`. -/
def within (lo hi x : Int) : Bool := lo ≤ x && x ≤ hi

/-- Ranges of the parameters in the order of section 11.3; those of STORM_LEVEL and HEAD_CLOSE depend on others (R182, R184). -/
def paramRanges (p : List Int) : List (Int × Int) :=
  [ (500, 12000), (200, 2000), (5, 100), (100, 1000), (1, 4), (0, 30), (1, 20), (50, 2000), (10, 500), (100, 20000),
    (1, 200), (0, 100), (50, 2000), (2, 30), (10, 200), (20, 1000), (20, 1000), (20, 200), (20, 1000),
    (p.getD 21 0, p.getD 21 0 + p.getD 22 0 - 1), (60, 3600), (-10000, 10000), (1000, 30000), (20, 2000),
    (-500, p.getD 23 0 - 20), (10, 600) ]

/-- Parameters check (R182). -/
def paramsGood (p : List Int) : Bool :=
  p.length == 26 && (p.zip (paramRanges p)).all (fun x => within x.2.1 x.2.2 x.1)

/-- Calibration check (R182). -/
def calibrationGood (r : RawImage) : Bool := r.zeros.all (· ≤ 65535) && r.nulls.all (within (-200) 200)

/-- No element is smaller than the one before it. -/
def nondecreasing : List Nat → Bool
  | a :: b :: rest => a ≤ b && nondecreasing (b :: rest)
  | _ => true

/-- Geometry check (R182). -/
def geometryGood (t : List Nat) : Bool := t.all (· ≤ 12000) && nondecreasing t

/-- The neighbour byte is a station number or the absent marker (R182). -/
def neighbourByteGood (n : Nat) : Bool := n ≤ 15 || n == 255

/-- Layout entries check (R182); the other bytes of an absent station are ignored (R188). -/
def layoutEntriesGood (l : List RawLayout) : Bool :=
  l.all (fun e => e.present == 0 || (e.present == 1 && neighbourByteGood e.left && neighbourByteGood e.right))

/-- A layout entry as the other blocks read it. -/
def layoutEntryOf (e : RawLayout) : LayoutEntry :=
  { present := e.present == 1, left := optOf255 e.left, right := optOf255 e.right }

/-- The entry of a station, an absent one where the layout has none. -/
def layoutAt (l : List LayoutEntry) (n : Nat) : LayoutEntry := l.getD n { present := false, left := none, right := none }

/-- The neighbours of one present station are sound (R182): not itself, present, different, and each naming it back. -/
def neighboursGoodAt (l : List LayoutEntry) (n : Nat) : Bool :=
  let e := layoutAt l n
  let leftGood := match e.left with
    | none => true
    | some x => x != n && (layoutAt l x).present && (layoutAt l x).right == some n
  let rightGood := match e.right with
    | none => true
    | some x => x != n && (layoutAt l x).present && (layoutAt l x).left == some n
  leftGood && rightGood && (e.left.isNone || e.left != e.right)

/-- Neighbours check, over every present station (R182). -/
def neighboursGood (l : List LayoutEntry) : Bool :=
  (List.range l.length).all (fun n => !(layoutAt l n).present || neighboursGoodAt l n)

/-- Authorities check (R182). -/
def authoritiesGood (a : List Nat) : Bool := a.all (· ≤ 3)

/-- Directory check (R182): an entry is an address 0..63 or 255 for EMPTY. -/
def directoryGood (d : List Nat) : Bool := d.all (fun e => e ≤ 63 || e == 255)

def stepKindOfCode : Nat → Option StepKind
  | 0 => some .empty
  | 1 => some .order
  | 2 => some .orderPct
  | 3 => some .abs
  | 4 => some .rel
  | 5 => some .closed
  | 6 => some .hold
  | _ => none

/-- The value range of a step kind (R122, R182). -/
def stepValueGood (k : StepKind) (v : Int) : Bool :=
  match k with
  | .orderPct => within 0 200 v
  | .abs => within 0 12000 v
  | .rel => within (-12000) 12000 v
  | _ => true

/-- Step records check, one record (R182); the other bytes of an EMPTY record are ignored (R188). -/
def stepGood (r : RawStep) : Bool :=
  match stepKindOfCode r.kind with
  | none => false
  | some .empty => true
  | some k => (r.speed == 0 || (20 ≤ r.speed && r.speed ≤ 1000)) && stepValueGood k r.value && r.flags < 8

def stepRecordOf (r : RawStep) : StepRecord :=
  { kind := (stepKindOfCode r.kind).getD .empty, value := r.value, speed := r.speed, dwell := r.dwell,
    tideWait := flagOf r.flags 0, holdPoint := flagOf r.flags 1, last := flagOf r.flags 2 }

/-- The parameter set from the parameters in the order of section 11.3. -/
def paramsOf (p : List Int) : Params :=
  { openMax := (p.getD 0 0).toNat, reportPeriod := (p.getD 1 0).toNat, deadband := (p.getD 2 0).toNat,
    announceWait := (p.getD 3 0).toNat, moveLimit := (p.getD 4 0).toNat, warnLead := (p.getD 5 0).toNat,
    pumpWait := (p.getD 6 0).toNat, spread := (p.getD 7 0).toNat, hMin := (p.getD 8 0).toNat,
    gateConstant := (p.getD 9 0).toNat, kp := (p.getD 10 0).toNat, ks := (p.getD 11 0).toNat,
    valveTol := (p.getD 12 0).toNat, stallTime := (p.getD 13 0).toNat, skewTrip := (p.getD 14 0).toNat,
    defaultSpeed := (p.getD 15 0).toNat, localSpeed := (p.getD 16 0).toNat, maintSpeed := (p.getD 17 0).toNat,
    stormSpeed := (p.getD 18 0).toNat, stormLevel := p.getD 19 0, stormClearTime := (p.getD 20 0).toNat,
    lvlOffset := p.getD 21 0, lvlSpan := (p.getD 22 0).toNat, headOpen := p.getD 23 0, headClose := p.getD 24 0,
    tideQualify := (p.getD 25 0).toNat }

/-- The image as the other blocks hold it (R189). -/
def imageOf (r : RawImage) : Image :=
  { params := paramsOf r.params, encZeroL := r.zeros.getD 0 0, encZeroR := r.zeros.getD 1 0,
    nullL := r.nulls.getD 0 0, nullR := r.nulls.getD 1 0, geometry := r.geometry, layout := r.layout.map layoutEntryOf,
    authorities := r.authorities, directory := r.directory.map optOf255, codes := r.codes,
    steps := r.steps.map stepRecordOf }

/-- Every check of R182 but the check word, for a station with this strap number. -/
def contentGood (strap : Nat) (r : RawImage) : Bool :=
  r.format == 0x06 && paramsGood r.params && calibrationGood r && geometryGood r.geometry && layoutEntriesGood r.layout &&
    (layoutAt (r.layout.map layoutEntryOf) strap).present && neighboursGood (r.layout.map layoutEntryOf) &&
    authoritiesGood r.authorities && directoryGood r.directory && r.steps.all stepGood

/-- The image a completed transfer gives: some when it passes every check of R182, none when it fails any one. -/
def checkedImage (strap : Nat) (bs : List Byte) : Option Image :=
  if imageCheckWordGood bs && contentGood strap (rawImageOf bs) then some (imageOf (rawImageOf bs)) else none

end Sys2Proof.Machine
end

