-- ==== Sys2Proof/Machine/Ops.lean ====
section
/-! DEFINITION. The shared operations every event is made of: what a block reads of another, how time runs on, how kinds enter and
leave the fault sets, and how the move state changes with the outputs and the valves. -/

namespace Sys2Proof.Machine

/-! ### What the blocks read of one another -/

/-- The accepted image, if there is one (R183). -/
def acceptedImage (s : State) : Option Image :=
  match s.loader.image with
  | .accepted img => some img
  | _ => none

/-- The image has been accepted (R183). -/
def isAccepted (s : State) : Bool := (acceptedImage s).isSome

/-- The Line Interface sends and receives: from the end of the image read until the next reset (R179). -/
def lineWorks (s : State) : Bool := !s.loader.inReset && s.loader.image != .unread

/-- REPORT_PERIOD, or 500 ms after a rejected image (R47). -/
def reportPeriod (s : State) : Nat :=
  match acceptedImage s with
  | some img => img.params.reportPeriod
  | none => Config.rejectedPeriodMs

/-- The condition behind a fault kind is active (R160). -/
def condition (k : FaultKind) (s : State) : Bool := hasFault k s.modeCtl.active

/-- The adopted order applies: its mask names the station (R58). -/
def orderApplies (s : State) : Bool :=
  match s.order.adopted with
  | some o => o.mask.getLsbD s.loader.strap
  | none => false

/-- HALT is in force (R59). -/
def haltInForce (s : State) : Bool :=
  match s.order.adopted with
  | some o => o.halt && o.mask.getLsbD s.loader.strap
  | none => false

/-- The key-implied mode of the latest sample (R148). -/
def keyMode (s : State) : Mode := if s.modeCtl.maintKey then .maint else if s.modeCtl.localKey then .loc else .auto

/-- The storm demand (R154). -/
def stormDemand (s : State) : Bool := s.modeCtl.condOrder || s.modeCtl.condInput || s.modeCtl.condLevel

/-- A side is good while it holds a last good count and its encoder fault condition is inactive (R4). -/
def sideGood (d : Side) (s : State) : Bool :=
  match d with
  | .left => s.position.left.lastCount.isSome && !condition .encL s
  | .right => s.position.right.lastCount.isSome && !condition .encR s

/-- The authority configured for a console number (R53). -/
def authorityOf (img : Image) (console : Nat) : Nat := if 16 ≤ console then img.authorities.getD (console - 16) 0 else 0

/-- The step record at an index, an EMPTY one where the table has none. -/
def stepAt (img : Image) (i : Nat) : StepRecord :=
  img.steps.getD i { kind := .empty, value := 0, speed := 0, dwell := 0, tideWait := false, holdPoint := false, last := false }

/-- The null code of a side's converter (R112, R119, R120): 8192 with the null trim, once there is an accepted image. -/
def nullCode (d : Side) (s : State) : Nat :=
  match acceptedImage s with
  | some img =>
    (clampInt 0 16383 ((Config.nullCode : Int) + match d with | .left => img.nullL | .right => img.nullR)).toNat
  | none => Config.nullCode

/-! ### Time (logs 1 to 3) -/

/-- A timer that runs counts on; a stopped one stays stopped. -/
def runTimer (dt : Nat) (t : Option Nat) : Option Nat := t.map (· + dt)

/-- The weir clock after `dt` ms: the millisecond of day and the day, each returning to 0 (R61). -/
def clockAfter (dt : Nat) (o : OrderUnit) : OrderUnit :=
  { o with
    clockMs := (o.clockMs + dt) % Config.dayMs
    clockDay := (o.clockDay + (o.clockMs + dt) / Config.dayMs) % Config.clockDays }

/-- Another node makes the line dominant, which ends an idle and starts the dominant run where none stands, or recessive, which stops the run
(R170, R173). -/
def takeLevel (dominant : Bool) (l : Line) : Line :=
  if dominant then { l with idle := false, dominantRun := some (l.dominantRun.getD 0) } else { l with dominantRun := none }

/-- `dt` ms pass on the line without a change by another node: the dominant run counts on (R173). While this station sends, each of its
characters ends the run before and starts another, so that in whole ms a run stands where it began (R167). -/
def runLevel (dt : Nat) (l : Line) : Line :=
  { l with dominantRun := if l.sending.isSome then l.dominantRun else runTimer dt l.dominantRun }

/-- `dt` ms pass on the line while the other nodes make these changes (R170, R173): those that fall due are made, one after another, and the
rest are held. -/
def takeChanges (dt : Nat) : List LineChange → Line → Line
  | [], l => { runLevel dt l with changes := [] }
  | c :: cs, l =>
    if c.wait ≤ dt then takeChanges (dt - c.wait) cs (takeLevel c.dominant (runLevel c.wait l))
    else { runLevel dt l with changes := { c with wait := c.wait - dt } :: cs }

/-- What the other nodes do on the line from this moment on is as given: a change without a wait is made at once (log 40). -/
def hearLine (coming : List LineChange) (s : State) : State := s.withLine (takeChanges 0 coming s.line)

/-- `dt` milliseconds pass: everything that counts time counts on, the other nodes make the changes of the line's level that fall
due, and nothing else happens. During a reset no time is counted. The
clocks that start at acceptance (R1, R15, R37, R40) count from then. -/
def elapse (dt : Nat) (s : State) : State :=
  if s.loader.inReset then s
  else
    { s with
      loader := { s.loader with retryTimer := runTimer dt s.loader.retryTimer }
      position :=
        { s.position with
          left := { s.position.left with readTimer := runTimer dt s.position.left.readTimer }
          right := { s.position.right with readTimer := runTimer dt s.position.right.readTimer } }
      peers := { s.peers with duplicateTimer := runTimer dt s.peers.duplicateTimer }
      order := clockAfter dt s.order
      grant :=
        { s.grant with
          announceTimer := runTimer dt s.grant.announceTimer
          warnTimer := runTimer dt s.grant.warnTimer
          pumpTimer := runTimer dt s.grant.pumpTimer }
      drive := { s.drive with stall := s.drive.stall.map (fun w => { w with age := w.age + dt }) }
      modeCtl := { s.modeCtl with stormClear := runTimer dt s.modeCtl.stormClear }
      line :=
        { takeChanges dt s.line.changes s.line with
          txTimer := runTimer dt s.line.txTimer
          lineSilent := if isAccepted s then s.line.lineSilent + dt else s.line.lineSilent
          reportTimer := runTimer dt s.line.reportTimer
          gapTimer := s.line.gapTimer + dt }
      clocks :=
        if isAccepted s then
          { s.clocks with tick := s.clocks.tick + dt, sample := s.clocks.sample + dt, age := s.clocks.age + dt }
        else s.clocks }

/-- The time runs on until a timer that stands at `age` has reached `limit`; no time passes if it has. -/
def runOn (age limit : Nat) (s : State) : State := elapse (limit - age) s

/-! ### Fault sets (R160 to R162) -/

/-- The kinds of `ks` whose conditions were inactive: those that become active now (R160). -/
def becomingActive (ks : List FaultKind) (s : State) : List FaultKind := ks.filter (fun k => !hasFault k s.modeCtl.active)

/-- The kinds of `ks` that enter the latched set now (R161). -/
def enteringLatched (ks : List FaultKind) (s : State) : List FaultKind :=
  (becomingActive ks s).filter (fun k => !hasFault k s.modeCtl.latched)

/-- The conditions of `ks`, given in kind order, become active together: they enter the active set and the latched set, and the
first-fault record takes the first that enters a latched set that was empty (R160 to R162). The mode does not change here. -/
def latchKinds (ks : List FaultKind) (s : State) : State :=
  s.withModeCtl
    { s.modeCtl with
      active := (becomingActive ks s).foldl (fun f k => addFault k f) s.modeCtl.active
      latched := (becomingActive ks s).foldl (fun f k => addFault k f) s.modeCtl.latched
      firstFault :=
        if s.modeCtl.latched = 0 then
          match (enteringLatched ks s).head? with
          | some k => some { kind := k, day := s.order.clockDay, ms := s.order.clockMs }
          | none => s.modeCtl.firstFault
        else s.modeCtl.firstFault }

/-- The conditions of `ks` become inactive: the kinds leave the active set and stay latched (R160). -/
def clearKinds (ks : List FaultKind) (s : State) : State :=
  s.withModeCtl { s.modeCtl with active := ks.foldl (fun f k => dropFault k f) s.modeCtl.active }

/-- Kinds are taken out of the latched set; the first-fault record empties with the set (R140, R162, R163). -/
def unlatch (kept : FaultSet) (s : State) : State :=
  s.withModeCtl
    { s.modeCtl with latched := kept, firstFault := if kept = 0 then none else s.modeCtl.firstFault }

/-! ### The pending-change mark -/

/-- The pending-change mark is set, at an event of R43 that may leave what it changed as it was. -/
def setMark (s : State) : State := s.withLine { s.line with mark := true }

/-! ### The move state, its outputs and the valves -/

/-- The claim with a move state and the three outputs that follow it (R89). -/
def claimIn (m : MoveState) (g : Grant) : Grant :=
  { g with
    moveState := m
    horn := m == .warn || m == .moving
    pumpRun := m == .warn || m == .moving
    driveEnable := m == .moving }

/-- The Drive Unit as the move state leaves MOVING: commands 0, codes null, stall window stopped, mismatch runs 0 (R112, R113,
R115). -/
def driveAtRest (s : State) : Drive :=
  { s.drive with
    cmdL := 0, cmdR := 0, codeL := nullCode .left s, codeR := nullCode .right s, runL := 0, runR := 0, stall := none }

/-- The setpoint is set to the gate opening × 1000 (R107). -/
def setpointToOpening (s : State) : State := s.withDrive { s.drive with setpoint := s.position.opening * 1000 }

/-- The move state becomes STILL: no claim, ticket 0, timers stopped, outputs off (R89, R92, R95, R100, R102); the valves at rest if
it was MOVING (R112); the conditions that describe a move inactive (R98, R114, R116). -/
def standStill (s : State) : State :=
  let rested := if s.grant.moveState = .moving then s.withDrive (driveAtRest s) else s
  clearKinds [.valveL, .valveR, .stall, .pump]
    (rested.withGrant
      { claimIn .still s.grant with
        moveKind := .noClaim, ticket := 0, announceTimer := none, warnTimer := none, pumpTimer := none })

/-- Entry into MOVING (R97): the setpoint starts from the opening (R107), the stall window starts (R115), drive enable is asserted
(R89); the commands stay 0 until the first evaluation in MOVING (R112). -/
def enterMoving (s : State) : State :=
  let g := s.withGrant { claimIn .moving s.grant with warnTimer := none, pumpTimer := none }
  g.withDrive
    { s.drive with setpoint := s.position.opening * 1000, stall := some { age := 0, startOpening := s.position.opening } }

/-- Entry into WARN with a lead in ms (R91, R95): the warn timer starts, horn and pump run come on. -/
def enterWarn (kind : MoveKind) (lead : Nat) (s : State) : State :=
  s.withGrant { claimIn .warn s.grant with moveKind := kind, warnTimer := some 0, warnLead := lead, pumpTimer := none }

/-- LIMITED is set or cleared (R85). -/
def setLimited (b : Bool) (s : State) : State := s.withTarget { s.target with limited := b }

/-- The stop that HALT makes in AUTO (R59): WANT, WARN or MOVING becomes STILL, a moving gate's setpoint goes to the opening. -/
def haltStop (s : State) : State :=
  match s.grant.moveState with
  | .still => s
  | .moving => standStill (setpointToOpening s)
  | _ => standStill s

/-- The warning lead of a bypass move, ms: 0 in MAINT, WARN_LEAD in STORM (R90). -/
def bypassLead (img : Image) (m : Mode) : Nat := if m = .maint then 0 else img.params.warnLead * 1000

/-- What the Grant Unit does with its claim at a transition of the mode (R101, R102). -/
def claimAtTransition (new : Mode) (s : State) : State :=
  match new with
  | .start => s
  | .fault => standStill s
  | .storm | .maint =>
    let lead := match acceptedImage s with
      | some img => bypassLead img new
      | none => 0
    match s.grant.moveState with
    | .still => s
    | .want => standStill s
    | .warn =>
      let t := if s.grant.moveKind = .granted then setLimited false s else s
      t.withGrant
        { s.grant with moveKind := .bypass, ticket := 0, warnTimer := some 0, warnLead := lead, pumpTimer := none }
    | .moving => s.withGrant { s.grant with moveKind := .bypass, ticket := 0 }
  | .auto | .loc =>
    if s.grant.moveKind = .bypass then
      match s.grant.moveState with
      | .warn => standStill s
      | .moving => standStill (setpointToOpening s)
      | _ => s
    else s

end Sys2Proof.Machine
end

