-- ==== Sys2Proof/Machine/Lookups.lean ====
section
/-! DEFINITION. The lookups the Peer Table answers (R38) and the keys they compare (R93). -/

namespace Sys2Proof.Machine

/-- The content of the row of a station number, none while the row is EMPTY (R33). -/
def contentAt (n : Nat) (s : State) : Option PeerRow := (s.peers.rows.getD n .initial).content

/-- The contents of the filled rows with their station numbers (R33, R38). -/
def peerRows (s : State) : List (Nat × PeerRow) :=
  (List.range 16).filterMap (fun n => (contentAt n s).map (fun r => (n, r)))

/-- FRESH or STALE. -/
def notLost (r : PeerRow) : Bool := r.freshness != .lost

/-- Move state WARN or MOVING. -/
def underWay (m : MoveState) : Bool := m == .warn || m == .moving

/-- The largest ticket among the FRESH or STALE rows in WANT, WARN or MOVING, 0 when there is none (R38, R92). -/
def highestTicket (s : State) : Nat :=
  ((peerRows s).filter (fun x => notLost x.2 && x.2.moveState != .still)).foldl (fun m x => max m x.2.ticket) 0

/-- Movers: FRESH or STALE, isolated clear, WARN or MOVING (R38). -/
def movers (s : State) : List (Nat × PeerRow) :=
  (peerRows s).filter (fun x => notLost x.2 && !x.2.isolated && underWay x.2.moveState)

/-- Wanters: FRESH, isolated clear, WANT (R38). -/
def wanters (s : State) : List (Nat × PeerRow) :=
  (peerRows s).filter (fun x => x.2.freshness == .fresh && !x.2.isolated && x.2.moveState == .want)

/-- The key (ticket, station number) of the first is lower than that of the second (R93). -/
def keyLower (ticketA numberA ticketB numberB : Nat) : Bool := ticketA < ticketB || (ticketA == ticketB && numberA < numberB)

/-- The key of a row is lower than the station's own (R93). -/
def lowerThanOwn (s : State) (x : Nat × PeerRow) : Bool := keyLower x.2.ticket x.1 s.grant.ticket s.loader.strap

/-- The number of claimants (R95): every mover, and the wanters of lower key. -/
def claimants (s : State) : Nat := (movers s).length + ((wanters s).filter (lowerThanOwn s)).length

/-- The movers of lower key, which a granted station in WARN yields to (R96). -/
def yieldCount (s : State) : Nat := ((movers s).filter (lowerThanOwn s)).length

/-- The openings of the neighbours that bound the target: FRESH or STALE with isolated clear (R38, R82). -/
def neighbourOpenings (img : Image) (s : State) : List Nat :=
  let e := layoutAt img.layout s.loader.strap
  ([e.left, e.right].filterMap id).filterMap (fun n =>
    match contentAt n s with
    | some r => if notLost r && !r.isolated then some r.opening else none
    | none => none)

/-- The station numbers of the sharers of an order: FRESH, available set, order key equal to the order's (R38). -/
def sharers (o : Order) (s : State) : List Nat :=
  ((peerRows s).filter (fun x =>
    x.2.freshness == .fresh && x.2.available && x.2.keyNumber == o.number && x.2.keyOrigin == o.origin)).map (·.1)

/-- The level a row gives to a channel's median, if any (R20). -/
def peerLevel (c : ChannelId) (r : PeerRow) : Option Int :=
  if r.freshness == .fresh then
    match c with
    | .upstream => if r.upOwn then r.upLevel else none
    | .downstream => if r.dnOwn then r.dnLevel else none
  else none

/-- The peer values of a channel (R20). -/
def peerLevels (c : ChannelId) (s : State) : List Int := (peerRows s).filterMap (fun x => peerLevel c x.2)

/-- The row of a station number is FRESH (R26, R38). -/
def rowFresh (n : Nat) (s : State) : Bool :=
  match contentAt n s with
  | some r => r.freshness == .fresh
  | none => false

/-- The row of a station number is configured: present in the layout and not the station's own (R33). -/
def rowConfigured (img : Image) (n : Nat) (s : State) : Bool := n != s.loader.strap && (layoutAt img.layout n).present

/-- The layout marks at least one other station present (R40). -/
def hasPeers (img : Image) (s : State) : Bool := (List.range 16).any (fun n => rowConfigured img n s)

end Sys2Proof.Machine
end

