-- ==== Sys2Proof/Machine/PlanOps.lean ====
section
/-! DEFINITION. The Plan Sequencer's operations (chapter 8): the interpreter and its refill, the taking of a step, the ends of a plan,
its start, hold, resume and restore, and the phases of a step. -/

namespace Sys2Proof.Machine

/-! ### The interpreter (R122, R124 to R128) -/

/-- An operation of the plan code table (R122). -/
inductive PlanOp
  | steps (first last count : Nat)
  | repeatLoop (n : Nat)
  | forever
  | nextLoop
  | call (address : Nat)
  | back
  | finish
  deriving DecidableEq, Repr

/-- The operation of a code; none when it is undecodable (R122, R188). -/
def decodeCode (c : RawCode) : Option PlanOp :=
  match c.op with
  | 1 => if c.a ≤ c.b ∧ 1 ≤ c.c ∧ c.c ≤ 255 then some (.steps c.a c.b c.c) else none
  | 2 => if 2 ≤ c.a ∧ c.a ≤ 255 then some (.repeatLoop c.a) else none
  | 3 => some .forever
  | 4 => some .nextLoop
  | 5 => some (.call c.a)
  | 6 => some .back
  | 7 => some .finish
  | _ => none

/-- Fetch: none from an address above 63 (R126) or when the code is undecodable (R129). -/
def fetchCode (img : Image) (address : Nat) : Option PlanOp :=
  if address ≤ 63 then img.codes[address]?.bind decodeCode else none

/-- The cursor after the push of its index (R124). -/
def advanceCursor (c : Cursor) : Option Cursor :=
  if c.index < c.last then some { c with index := c.index + 1 }
  else if 2 ≤ c.remaining then some { c with index := c.first, remaining := c.remaining - 1 }
  else none

/-- The effect of an operation on the interpreter state; none for an error found at its execution (R124 to R126, R129). -/
def executeOp (op : PlanOp) (i : Interp) : Option Interp :=
  match op with
  | .steps first last count =>
    some { i with codePtr := i.codePtr + 1, cursor := some { index := first, first := first, last := last, remaining := count } }
  | .repeatLoop n =>
    if i.loops.length < Config.stackDepth then
      some { i with codePtr := i.codePtr + 1, loops := { body := i.codePtr + 1, remaining := some n } :: i.loops }
    else none
  | .forever =>
    if i.loops.length < Config.stackDepth then
      some { i with codePtr := i.codePtr + 1, loops := { body := i.codePtr + 1, remaining := none } :: i.loops }
    else none
  | .nextLoop =>
    match i.loops with
    | [] => none
    | f :: rest =>
      match f.remaining with
      | none => some { i with codePtr := f.body }
      | some n =>
        if 1 < n then some { i with codePtr := f.body, loops := { f with remaining := some (n - 1) } :: rest }
        else some { i with codePtr := i.codePtr + 1, loops := rest }
  | .call address =>
    if i.calls.length < Config.stackDepth then some { i with codePtr := address, calls := (i.codePtr + 1) :: i.calls } else none
  | .back =>
    match i.calls with
    | [] => none
    | a :: rest => some { i with codePtr := a, calls := rest }
  | .finish => some { i with ended := true }

/-- The index may be pushed: at most 127 and its record not EMPTY (R124). -/
def pushable (img : Image) (index : Nat) : Bool := index ≤ 127 && (stepAt img index).kind != .empty

/-- One action of a refill: a push from the group cursor if there is one, else a fetch and an execution, counted by the spin count;
none for an interpreter error (R124, R127 to R129). -/
def refillAction (img : Image) (p : Plan) : Option Plan :=
  match p.interp.cursor with
  | some c =>
    if pushable img c.index then
      some { p with queue := p.queue ++ [c.index], interp := { p.interp with cursor := advanceCursor c, spin := 0 } }
    else none
  | none =>
    if p.interp.spin < Config.spinLimit then
      match fetchCode img p.interp.codePtr with
      | none => none
      | some op => (executeOp op { p.interp with spin := p.interp.spin + 1 }).map (fun i => { p with interp := i })
    else none

/-- Actions until the queue is full, the ended flag is set, or an error occurs (R127). The fuel is never used up: between two pushes at
most 32 codes are executed (R128), so 8 pushes take at most 8 × 33 actions. -/
def refillLoop (img : Image) : Nat → Plan → Option Plan
  | 0, p => some p
  | n + 1, p =>
    if Config.queueDepth ≤ p.queue.length ∨ p.interp.ended then some p
    else
      match refillAction img p with
      | none => none
      | some p' => refillLoop img n p'

/-- Enough actions for one refill. -/
def refillFuel : Nat := 300

/-! ### Ends of a plan -/

/-- The passage into IDLE or ENDED (R141): queue flushed, interpreter cleared, no current step, dwell 0, request clear, no resume
point, step start opening none; the plan number becomes none at IDLE. -/
def endPlan (new : PlanState) (s : State) : State :=
  let p := s.withPlan
    { s.plan with
      state := new
      number := if new = .idle then none else s.plan.number
      interp := .cleared, queue := [], current := none, dwell := 0, finishAtHold := false, resume := none }
  p.withTarget { s.target with stepStart := .absent }

/-- An interpreter error (R129): the plan FAILED, queue and interpreter cleared, no current step; PLAN_BAD raised and at once inactive
(R130); step start opening none (R80). -/
def failPlan (s : State) : State :=
  let p := s.withPlan
    { s.plan with
      state := .failed, interp := .cleared, queue := [], current := none, finishAtHold := false, resume := none }
  clearKinds [.planBad] (latchKinds [.planBad] (p.withTarget { s.target with stepStart := .absent }))

/-- An abandon makes a RUNNING or HELD plan IDLE and leaves any other as it is (R141). -/
def abandonPlan (s : State) : State :=
  if s.plan.state = .running ∨ s.plan.state = .held then endPlan .idle s else s

/-! ### Refill and take -/

/-- A refill at a moment at which the plan is RUNNING (R127). -/
def refill (s : State) : State :=
  match acceptedImage s with
  | none => s
  | some img =>
    if s.plan.state = .running then
      match refillLoop img refillFuel s.plan with
      | some p => s.withPlan p
      | none => failPlan s
    else s

/-- A step begins (R133): it becomes current in AIM, its dwell is loaded, and the Target Unit records the start opening (R80). -/
def beginStep (img : Image) (i : Nat) (rest : List Nat) (s : State) : State :=
  let p := s.withPlan
    { s.plan with
      queue := rest, current := some i, phase := .aim, dwell := (stepAt img i).dwell * 1000, aimJudged := false }
  p.withTarget
    { s.target with stepStart := if s.position.established then .recorded s.position.opening else .pending }

/-- The executor takes a step when the plan is RUNNING with no current step and HALT is not in force (R132): the head of the queue,
after which the queue is refilled; or, with the queue empty and the ended flag set, the plan ends. -/
def takeStep (s : State) : State :=
  match acceptedImage s with
  | none => s
  | some img =>
    if s.plan.state = .running ∧ s.plan.current = none ∧ haltInForce s = false then
      match s.plan.queue with
      | i :: rest => refill (beginStep img i rest s)
      | [] => if s.plan.interp.ended then endPlan .ended s else s
    else s

/-! ### Start, hold, resume, restore -/

/-- PLAN_BAD is removed from the latched set at a plan start (R140). -/
def removePlanBad (s : State) : State := unlatch (dropFault .planBad s.modeCtl.latched) s

/-- A plan start (R140). -/
def startPlan (n : Nat) (s : State) : State :=
  match acceptedImage s with
  | none => s
  | some img =>
    let cleared := removePlanBad s
    let fresh := (cleared.withPlan
      { cleared.plan with
        number := some n, interp := .cleared, queue := [], current := none, dwell := 0, finishAtHold := false,
        resume := none }).withTarget { cleared.target with stepStart := .absent }
    let expecting := fresh.withTide { fresh.tide with expected := .opens, latch := false }
    match img.directory.getD n none with
    | none => failPlan expecting
    | some address =>
      takeStep (refill (expecting.withPlan
        { expecting.plan with state := .running, interp := { Interp.cleared with codePtr := address } }))

/-- The hold of a RUNNING plan at a transition out of AUTO (R142). -/
def holdPlan (s : State) : State :=
  if s.plan.state = .running then
    s.withPlan
      { s.plan with
        state := .held
        phase := if s.plan.current.isSome then .aim else s.plan.phase
        aimJudged := if s.plan.current.isSome then false else s.plan.aimJudged
        resume := if s.plan.current.isSome then some .current else some .next }
  else s

/-- RESUME of a HELD plan (R143): RUNNING again, the current step aimed again, or the next step taken; the queue refilled. -/
def resumePlan (s : State) : State :=
  match s.plan.resume with
  | some .current => refill (s.withPlan { s.plan with state := .running, resume := none, aimJudged := false })
  | _ => takeStep (refill (s.withPlan { s.plan with state := .running, resume := none, current := none }))

/-- The plan context a storm save takes (R155). -/
def planContext (s : State) : StormSave :=
  { state := s.plan.state, number := s.plan.number, interp := s.plan.interp, queue := s.plan.queue, current := s.plan.current,
    phase := s.plan.phase, dwell := s.plan.dwell, expected := s.tide.expected }

/-- The Sequencer adjusts a restored plan to the mode entered (R145). A plan restored RUNNING into AUTO has no resume point: by the model's
choice, since R145 names none and the save holds none (R155; log 41). -/
def adjustRestored (m : Mode) (s : State) : State :=
  match s.plan.state with
  | .running =>
    if m = .auto then
      takeStep (refill (s.withPlan
        { s.plan with
          resume := none
          phase := if s.plan.current.isSome then .aim else s.plan.phase
          aimJudged := if s.plan.current.isSome then false else s.plan.aimJudged }))
    else holdPlan s
  | .held =>
    s.withPlan
      { s.plan with resume := if s.plan.phase = .done ∨ s.plan.current = none then some .next else some .current }
  | _ => s

/-- The storm save is restored and discarded at a transition into AUTO, LOCAL or MAINT (R145, R157, R158). -/
def restoreSave (m : Mode) (s : State) : State :=
  match s.modeCtl.save with
  | none => s
  | some c =>
    let back := s.withPlan
      { s.plan with
        state := c.state, number := c.number, interp := c.interp, queue := c.queue, current := c.current, phase := c.phase,
        dwell := c.dwell }
    let tide := back.withTide { back.tide with expected := c.expected }
    adjustRestored m (tide.withModeCtl { tide.modeCtl with save := none })

/-! ### The plan action (R58) -/

/-- A plan action. -/
inductive PlanAction
  | abandon
  | start (n : Nat)
  | nothing
  deriving DecidableEq, Repr

/-- The plan action an adopted order determines (R58). -/
def planActionOf (s : State) : PlanAction :=
  match s.order.adopted with
  | none => .nothing
  | some o =>
    if orderApplies s then
      match o.plan with
      | none => .abandon
      | some n =>
        if (s.plan.state = .running ∨ s.plan.state = .held) ∧ s.plan.number = some n ∧ o.restartPlan = false then .nothing
        else .start n
    else .abandon

/-- A plan action is taken (R58). -/
def takePlanAction (s : State) : State :=
  match planActionOf s with
  | .abandon => abandonPlan s
  | .start n => startPlan n s
  | .nothing => s

/-! ### Phases of a step (R134 to R137) -/

/-- The phase passes to DONE, and what follows is decided at once (R136, R137). Where the plan passes on, the step index becomes none and the
mark is set here: the step that begins may have the index of the one that ended (R43, R133). -/
def stepDone (img : Image) (s : State) : State :=
  match s.plan.current with
  | none => s
  | some i =>
    if (stepAt img i).last then endPlan .ended (s.withPlan { s.plan with phase := .done })
    else if (stepAt img i).holdPoint && s.plan.finishAtHold then
      s.withPlan { s.plan with state := .held, phase := .done, resume := some .next, finishAtHold := false }
    else takeStep (setMark (s.withPlan { s.plan with phase := .done, current := none }))

/-- The kind a taken latch makes the next one to expect (R31). -/
def otherKind : TideKind → TideKind
  | .opens => .closes
  | .closes => .opens

/-- A step is in TIDE: it passes at once without TIDE_WAIT, takes a set latch, or waits (R136). -/
def tidePhase (img : Image) (s : State) : State :=
  match s.plan.current with
  | none => s
  | some i =>
    if (stepAt img i).tideWait then
      if s.tide.latch then
        stepDone img (s.withTide { s.tide with latch := false, expected := otherKind s.tide.expected })
      else s
    else stepDone img s

/-- The phase passes to TIDE (R135, R136). -/
def enterTide (img : Image) (s : State) : State := tidePhase img (s.withPlan { s.plan with phase := .tide })

/-- The phase passes to DWELL, and on to TIDE at once with the counter at 0 (R134, R135). -/
def enterDwell (img : Image) (s : State) : State :=
  if s.plan.dwell = 0 then enterTide img (s.withPlan { s.plan with phase := .dwell })
  else s.withPlan { s.plan with phase := .dwell }

/-- AIM is complete (R134). -/
def aimComplete (s : State) : Bool :=
  s.grant.moveState == .still && !s.target.offTarget && !s.target.clamped && s.plan.aimJudged

/-- The Sequencer's evaluation at a control tick (R123, R134 to R136, R144). -/
def evalPlan (img : Image) (s : State) : State :=
  if s.plan.state = .running ∧ haltInForce s = false ∧ s.plan.current ≠ none then
    match s.plan.phase with
    | .aim => if aimComplete s then enterDwell img s else s
    | .dwell =>
      let counted := s.withPlan { s.plan with dwell := s.plan.dwell - Config.tickMs }
      if counted.plan.dwell = 0 then enterTide img counted else counted
    | .tide => tidePhase img s
    | .done => s
  else s

end Sys2Proof.Machine
end

