-- ==== Sys2Proof/Machine/ModeOps.lean ====
section
/-! DEFINITION. The transitions of the mode with all that acts at one (R149, R150), the raising of faults (R161), the storm conditions
(R154, R156), the adoption of an order (R56), and the tide event (R28). -/

namespace Sys2Proof.Machine

/-! ### Transitions of the mode -/

/-- At an entry into STORM the plan context is saved if no save is held (R155). -/
def takeStormSave (new : Mode) (s : State) : State :=
  if new = .storm ∧ s.modeCtl.save = none then s.withModeCtl { s.modeCtl with save := some (planContext s) } else s

/-- The fault relay is energised in AUTO, LOCAL, MAINT and STORM (R151). -/
def relayIn (m : Mode) : Bool := m == .auto || m == .loc || m == .maint || m == .storm

/-- The mode and the relay that follows it (R151); the storm clear timer stops at any transition out of STORM (R156). -/
def setMode (new : Mode) (s : State) : State :=
  s.withModeCtl { s.modeCtl with mode := new, relay := relayIn new, stormClear := none }

/-- Entry into AUTO (R58, R59, R150): HALT acts if it is in force, then a pending deferred plan action is determined afresh and taken. -/
def enterAuto (s : State) : State :=
  let halted := if haltInForce s then haltStop s else s
  if halted.order.deferred then
    takePlanAction (halted.withOrder { halted.order with deferred := false })
  else halted

/-- The storm save at a transition into a mode: restored into AUTO, LOCAL or MAINT, else kept (R157, R158). -/
def restoreInto (new : Mode) (s : State) : State :=
  if new = .auto ∨ new = .loc ∨ new = .maint then restoreSave new s else s

/-- A transition of the mode (R149, R150): the save is taken from the plan context as it stood before; the Grant Unit treats its claim;
a RUNNING plan is held on leaving AUTO; a save is restored; then what acts on entry into AUTO. -/
def enterMode (new : Mode) (s : State) : State :=
  let saved := takeStormSave new s
  let claimed := claimAtTransition new (setMode new saved)
  let held := if s.modeCtl.mode = .auto then holdPlan claimed else claimed
  let restored := restoreInto new held
  if new = .auto then enterAuto restored else restored

/-! ### Raising faults -/

/-- The modes that a stop-class kind takes to FAULT (R161). -/
def canFault (m : Mode) : Bool := relayIn m

/-- The conditions of `ks`, in kind order, become active together (R160 to R162); a stop-class kind that enters the latched set takes
the mode to FAULT (R161). -/
def raise (ks : List FaultKind) (s : State) : State :=
  if canFault s.modeCtl.mode && (enteringLatched ks s).any isStopClass then enterMode .fault (latchKinds ks s)
  else latchKinds ks s

/-! ### Storm conditions -/

/-- The storm clear timer after the conditions have changed (R156): it stops while the demand is true, starts when the demand becomes
false in STORM, and runs on otherwise. -/
def stormTimerAfter (before : State) (s : State) : State :=
  s.withModeCtl
    { s.modeCtl with
      stormClear :=
        if stormDemand s then none
        else if stormDemand before ∧ s.modeCtl.mode = .storm then some 0
        else s.modeCtl.stormClear }

/-- The storm demand takes an AUTO or LOCAL station into STORM (R149). -/
def serveStorm (s : State) : State :=
  if stormDemand s ∧ (s.modeCtl.mode = .auto ∨ s.modeCtl.mode = .loc) then enterMode .storm s else s

/-- The storm conditions take new values at their events (R154), with the effects of R149 and R156. -/
def setConditions (order input level : Bool) (s : State) : State :=
  serveStorm (stormTimerAfter s
    (s.withModeCtl { s.modeCtl with condOrder := order, condInput := input, condLevel := level }))

/-- The Mode Controller's sample of the two keys and the STORM input (R148, R149). -/
def sampleKeys (maintKey localKey stormInput : Bool) (s : State) : State :=
  let sampled := s.withModeCtl { s.modeCtl with maintKey := maintKey, localKey := localKey, stormInput := stormInput }
  let judged := setConditions s.modeCtl.condOrder stormInput s.modeCtl.condLevel sampled
  match s.modeCtl.mode with
  | .auto | .loc =>
    if stormDemand judged then judged
    else if keyMode judged = judged.modeCtl.mode then judged
    else enterMode (keyMode judged) judged
  | .maint =>
    if maintKey then judged else if stormDemand judged then enterMode .storm judged else enterMode (keyMode judged) judged
  | _ => judged

/-! ### Adoption of an order -/

/-- One order key is newer than the held order's (R52). -/
def newer (number origin : Nat) (held : Option Order) : Bool :=
  match held with
  | none => 1 ≤ number
  | some o => o.number < number || (number == o.number && origin < o.origin)

/-- An offered order brought into range (R55). -/
def inRange (img : Image) (kind : OrderKind) (f : OfferedOrder) : Order :=
  { number := f.number, origin := f.origin, kind := kind
    value := match kind with
      | .discharge => clampNat 0 20000 f.value
      | .opening => clampNat 0 img.params.openMax f.value
      | .close => 0
    plan := if f.plan ≤ 15 then some f.plan else none
    mask := f.mask, halt := flagOf f.flags 0, storm := flagOf f.flags 1, tideLock := flagOf f.flags 2,
    restartPlan := flagOf f.flags 3 }

/-- The plan action of an adoption: taken at once in AUTO, else deferred (R58). -/
def planActionAtAdoption (s : State) : State :=
  if s.modeCtl.mode = .auto then takePlanAction s else s.withOrder { s.order with deferred := true }

/-- What HALT does at an adoption (R59, R144): in AUTO it stops the claim while in force; where it is not in force, a RUNNING plan with
no current step takes its step. -/
def haltAtAdoption (s : State) : State :=
  if s.modeCtl.mode = .auto then (if haltInForce s then haltStop s else takeStep s) else s

/-- Adoption (R56): the whole adopted order is replaced, the mark is set, the plan action is taken or deferred, HALT comes into force or
ends, and the order's STORM flag is a storm condition (R60, R154). -/
def adopt (o : Order) (s : State) : State :=
  let held := s.withOrder { s.order with adopted := some o }
  let acted := haltAtAdoption (planActionAtAdoption (setMark held))
  setConditions o.storm acted.modeCtl.condInput acted.modeCtl.condLevel acted

/-- The weir clock is set by a weir time that is valid, and runs on otherwise (R61). -/
def setClock (t : Nat × Nat) (s : State) : State :=
  if t.2 < Config.dayMs then s.withOrder { s.order with clockDay := t.1, clockMs := t.2 } else s

/-! ### Counting and tide events -/

/-- The receive error counter counts up by one, saturating at 255 (R175). -/
def countError (s : State) : State := s.withLine { s.line with errors := countTo 255 s.line.errors }

/-- The window of a tide kind (R26, R27). -/
def windowOf : TideKind → Window
  | .opens => .opened
  | .closes => .closed

/-- The window is set and the candidate counter returns to 0, without an event (R23, R26). -/
def setWindow (w : Window) (s : State) : State := s.withTide { s.tide with window := w, candidate := 0 }

/-- The tide latch at an event (R30). -/
def latchAtEvent (k : TideKind) (s : State) : Bool :=
  s.tide.latch || ((s.plan.state == .running || s.plan.state == .held) && s.tide.expected == k)

/-- The station has a TIDE frame on the line. -/
def sendingTide (s : State) : Bool :=
  match s.line.sending with
  | some (.tide _) => true
  | _ => false

/-- The station has a STATE frame on the line. -/
def sendingState (s : State) : Bool :=
  match s.line.sending with
  | some (.state _) => true
  | _ => false

/-- A tide event (R28): the window toggles, the record goes to the TIDE slot, replacing one that waits or is on the line (R172), and the
latch is treated (R30). -/
def makeTideEvent (k : TideKind) (origin : TideOrigin) (head : Option Int) (s : State) : State :=
  let t := s.withTide { s.tide with window := windowOf k, candidate := 0, latch := latchAtEvent k s }
  t.withLine
    { s.line with
      tideSlot := some { kind := k, origin := origin, day := s.order.clockDay, ms := s.order.clockMs, head := head }
      tideReplaced := sendingTide s || s.line.tideReplaced }

end Sys2Proof.Machine
end

