-- ==== Sys2Proof/Machine/Reports.lean ====
section
/-! DEFINITION. The reporting schedule (section 3.6): what a STATE carries, what sets the pending-change mark, when a report is built,
and what every event of the part shares: the effects, then the mark, then the reports that are due. -/

namespace Sys2Proof.Machine

/-- The STATE frame built from the station's state as it stands (R45, R47, R177). -/
def buildState (s : State) : StateFrame where
  mode := s.modeCtl.mode
  moveState := s.grant.moveState
  ticket := s.grant.ticket
  bypass := s.grant.moveKind == .bypass
  available := s.target.available
  isolated := s.modeCtl.mode == .maint
  limited := s.target.limited
  shareUnmet := s.target.shareUnmet
  tideBlind := s.tide.blind
  alone := condition .alone s
  stormPending := (s.modeCtl.mode == .maint || s.modeCtl.mode == .fault) && stormDemand s
  planState := s.plan.state
  planNumber := if s.plan.state = .idle then 255 else optTo255 s.plan.number
  stepIndex := optTo255 s.plan.current
  opening := s.position.opening
  skew := s.position.skew
  effective := s.target.effective
  unclamped := s.target.unclamped
  upLevel := s.level.up.used
  dnLevel := s.level.dn.used
  upOwn := s.level.up.source == .own
  dnOwn := s.level.dn.source == .own
  window := s.tide.window
  orderNumber := match s.order.adopted with | some o => o.number | none => 0
  orderOrigin := match s.order.adopted with | some o => o.origin | none => 0
  orderKind := match s.order.adopted with | some o => orderKindCode o.kind | none => 0
  orderValue := match s.order.adopted with | some o => o.value | none => 0
  orderPlan := match s.order.adopted with | some o => optTo255 o.plan | none => 255
  orderMask := match s.order.adopted with | some o => o.mask | none => 0
  halt := match s.order.adopted with | some o => o.halt | none => false
  storm := match s.order.adopted with | some o => o.storm | none => false
  tideLock := match s.order.adopted with | some o => o.tideLock | none => false
  restartPlan := match s.order.adopted with | some o => o.restartPlan | none => false
  reportPeriod := reportPeriod s
  latched := s.modeCtl.latched
  firstKind := match s.modeCtl.firstFault with | some f => faultBit f.kind + 1 | none => 0
  firstDay := match s.modeCtl.firstFault with | some f => f.day | none => 0
  firstMs := match s.modeCtl.firstFault with | some f => f.ms | none => 0
  commandSource := match s.order.lastCommand with | some c => c.source | none => 0
  commandTag := match s.order.lastCommand with | some c => c.tag | none => 0
  commandCode := match s.order.lastCommand with | some c => c.code | none => 0
  commandResult := match s.order.lastCommand with | some c => resultCode c.result | none => 0
  errors := s.line.errors
  cause := causeCode s.line.causeToCarry

/-- What R43 watches besides adoptions and answers differs between two states: move state, mode, plan state, step index, latched set,
tide window. Adoptions, answers and the passage from step to step, which can leave what they changed as it was, set the mark themselves;
every other change of these items that an event undoes goes with a change that stays (log 13). -/
def reportedChange (s t : State) : Bool :=
  s.grant.moveState != t.grant.moveState || s.modeCtl.mode != t.modeCtl.mode || s.plan.state != t.plan.state ||
    s.plan.current != t.plan.current || s.modeCtl.latched != t.modeCtl.latched || s.tide.window != t.tide.window

/-- The pending-change mark after an event that took `s` to `t` (R43); a reset leaves it clear (R48). -/
def markChanges (s t : State) : State := t.withLine { t.line with mark := t.line.mark || (lineWorks t && reportedChange s t) }

/-- The gap is over (R44). -/
def gapOver (s : State) : Bool := Config.gapMs ≤ s.line.gapTimer

/-- A report is built now (R44, R172): a mark with the gap over, or a periodic report that is due, and no STATE of this station on the
line. -/
def reportDue (s : State) : Bool :=
  lineWorks s && !sendingState s && ((s.line.mark && gapOver s) || s.line.periodicDue)

/-- A STATE is built and placed in the STATE slot, replacing one that waits there (R42, R44, R172); the TX-blocked timer starts when
the slot was empty (R173). -/
def placeState (s : State) : State :=
  s.withLine
    { s.line with
      stateSlot := some (buildState s)
      mark := if gapOver s then false else s.line.mark
      periodicDue := false
      txTimer := if s.line.stateSlot.isNone then some 0 else s.line.txTimer
      txExpired := if s.line.stateSlot.isNone then false else s.line.txExpired }

/-- The reports that are due are built (R42, R44). -/
def serveReports (s : State) : State := if reportDue s then placeState s else s

/-- What every event shares: the state after its effects, the mark of R43, the report of R44. -/
def concludeEvent (before after : State) : State := serveReports (markChanges before after)

/-- The event of a meaning: its effects, then what every event shares; the machine goes on. -/
def event (f : State → State) (s : State) : Host.Outcome State Fault Refusal := .next (concludeEvent s (f s))

end Sys2Proof.Machine
end

