-- ==== Sys2Proof/Machine/Encoder.lean ====
section
/-! DEFINITION. The Position Unit (chapter 1): the encoder reads, their counting, the openings and the limit check; the events
ENCODER_REPLY, REPLY_WINDOW, ENC_FAULT and ENC_RECOVERY. -/

namespace Sys2Proof.Machine

/-- The encoder of a side. -/
def encoderOf (d : Side) (p : Position) : EncoderSide :=
  match d with
  | .left => p.left
  | .right => p.right

/-- The encoder of a side replaced. -/
def setEncoder (d : Side) (e : EncoderSide) (p : Position) : Position :=
  match d with
  | .left => { p with left := e }
  | .right => { p with right := e }

/-- A reply is accepted as a good read (R3): it verifies, and it lies within 256 of a last good count where there is one. -/
def replyGood (e : EncoderSide) (raw : Nat) (verifies : Bool) : Bool :=
  verifies &&
    match e.lastCount with
    | none => true
    | some c => raw ≤ c + 256 && c ≤ raw + 256

/-- The end of a failed read (R3, R4): the held count stays. -/
def failedRead (e : EncoderSide) : EncoderSide :=
  { e with failRun := countTo 255 e.failRun, goodRun := 0, readTimer := none }

/-- The end of a good read (R3, R4): the good run counts while the side's condition is active. -/
def goodRead (active : Bool) (raw : Nat) (e : EncoderSide) : EncoderSide :=
  { e with
    lastCount := some raw, failRun := 0, goodRun := if active then countTo 8 e.goodRun else 0, readTimer := none }

/-- The corrected count (R5): the raw count minus the side's zero, not below 0. -/
def correctedCount (raw encZero : Nat) : Nat := clampNat 0 65535 (raw - encZero)

/-- The side opening at a corrected count (R6). -/
def interpolate (t : List Nat) (c : Nat) : Nat :=
  t.getD (c / 4096) 0 + (t.getD (c / 4096 + 1) 0 - t.getD (c / 4096) 0) * (c % 4096) / 4096

/-- The side opening of an encoder, 0 while it has held no count (R5, R6, R8). -/
def sideOpeningOf (img : Image) (encZero : Nat) (e : EncoderSide) : Nat :=
  match e.lastCount with
  | none => 0
  | some raw => interpolate img.geometry (correctedCount raw encZero)

/-- The Position Unit's values when both reads of a tick have ended (R6 to R8), with the limit samples of that tick (R9, R10). -/
def recompute (img : Image) (p : Position) : Position :=
  let ol := sideOpeningOf img img.encZeroL p.left
  let or := sideOpeningOf img img.encZeroR p.right
  { p with
    left := { p.left with sideOpening := ol }
    right := { p.right with sideOpening := or }
    opening := clampNat 0 img.params.openMax ((ol + or) / 2)
    skew := (ol : Int) - (or : Int)
    established := p.established || (p.left.lastCount.isSome && p.right.lastCount.isSome)
    upper := p.upperTaken
    lower := p.lowerTaken }

/-- The limit samples disagree with the gate opening (R12). -/
def travelMismatch (img : Image) (p : Position) : Bool :=
  (p.upper && p.opening + 200 < img.params.openMax) || (p.lower && 200 < p.opening)

/-- A failure run has reached 3 (R4). -/
def encoderFails (e : EncoderSide) : Bool := 3 ≤ e.failRun

/-- A good run has reached 8 (R4). -/
def encoderRecovers (e : EncoderSide) : Bool := 8 ≤ e.goodRun

/-- A side's condition becomes inactive and its good run returns to 0 when that run has reached 8 (R4). -/
def recoverEncoder (d : Side) (s : State) : State :=
  let e := encoderOf d s.position
  if encoderRecovers e && condition (encoderKind d) s then
    clearKinds [encoderKind d] (s.withPosition (setEncoder d { e with goodRun := 0 } s.position))
  else s

/-- The kinds a Position Unit evaluation raises, in kind order (R4, R12, R162). -/
def positionFaults (img : Image) (s : State) : List FaultKind :=
  (if encoderFails s.position.left then [.encL] else []) ++ (if encoderFails s.position.right then [.encR] else []) ++
    (if travelMismatch img s.position then [.travel] else [])

/-- TRAVEL becomes inactive at an evaluation that shows no mismatch (R12). -/
def clearTravel (img : Image) (s : State) : State :=
  if travelMismatch img s.position then s else clearKinds [.travel] s

/-- The evaluation made when both reads of a tick have ended (R2, R9, R12): the openings and the limit samples change, then the limit check
is made; the conditions change and the kinds raised enter together (R162, log 6). -/
def evaluatePosition (img : Image) (s : State) : State :=
  let computed := s.withPosition (recompute img s.position)
  let recovered := recoverEncoder .right (recoverEncoder .left computed)
  raise (positionFaults img recovered) (clearTravel img recovered)

/-- Both reads have ended. -/
def readsEnded (s : State) : Bool := s.position.left.readTimer.isNone && s.position.right.readTimer.isNone

/-- The read of a side ends with the encoder as given; when both have ended the unit evaluates (R2). -/
def endRead (img : Image) (d : Side) (e : EncoderSide) (s : State) : State :=
  let ended := s.withPosition (setEncoder d e s.position)
  if readsEnded ended then evaluatePosition img ended else ended

/-- The read of a side ends without a reply, if it is still in progress (R2). -/
def failOpenRead (img : Image) (d : Side) (s : State) : State :=
  let e := encoderOf d s.position
  if e.readTimer.isSome then endRead img d (failedRead e) s else s

/-- A reply arrives (R2, R3): it ends the read in progress as good or failed. With no read in progress, or after the window of its own
request, it belongs to no read and is discarded: a reply to an earlier request comes after that request's window, also where it falls inside
the window of the open read (log 38). -/
def takeReply (img : Image) (r : Request) (raw : Half) (verifies : Bool) (s : State) : State :=
  let e := encoderOf r.side s.position
  match e.readTimer with
  | none => s
  | some t =>
    if r.later ≠ 0 ∨ Config.replyMs < t then s
    else if replyGood e raw.toNat verifies then
      endRead img r.side (goodRead (condition (encoderKind r.side) s) raw.toNat e) s
    else endRead img r.side (failedRead e) s

/-- The reply window of a side's read runs out (R2): the time runs on to its end, and the read fails. -/
def closeWindow (img : Image) (d : Side) (s : State) : State :=
  match (encoderOf d s.position).readTimer with
  | none => s
  | some t => failOpenRead img d (runOn t Config.replyMs s)

/-- Both reads start (R2). -/
def startReads (p : Position) : Position :=
  { p with left := { p.left with readTimer := some 0 }, right := { p.right with readTimer := some 0 } }

/-- The Position Unit at a control tick (R2, R10): both reads start, and the limit switches are sampled. The samples stand for the other
blocks with the openings of the same tick, when both reads have ended (R9, log 8). -/
def evalPosition (inputs : TickInputs) (s : State) : State :=
  s.withPosition { startReads s.position with upperTaken := inputs.upperSwitch, lowerTaken := inputs.lowerSwitch }

/-- An event that acts only while an accepted image is held; otherwise nothing happens (R1, R15, R33, R51, R71). -/
def whileAccepted (f : Image → State → State) (s : State) : State :=
  match acceptedImage s with
  | some img => f img s
  | none => s

/-- An event that acts only while the Line Interface works (R179). -/
def whileLineWorks (f : State → State) (s : State) : State := if lineWorks s then f s else s

/-- ENCODER_REPLY (R2, R3). -/
def execEncoderReply (request : Request) (raw : Half) (verifies : Bool) (s : State) : Host.Outcome State Fault Refusal :=
  event (whileAccepted (fun img t => takeReply img request raw verifies t)) s

/-- REPLY_WINDOW (R2). -/
def execReplyWindow (side : Side) (s : State) : Host.Outcome State Fault Refusal :=
  event (whileAccepted (fun img t => closeWindow img side t)) s

/-- ENC_FAULT (R4): a failure run that has reached 3 makes the side's condition active. -/
def execEncFault (side : Side) (s : State) : Host.Outcome State Fault Refusal :=
  event (whileAccepted (fun _ t =>
    if encoderFails (encoderOf side t.position) then raise [encoderKind side] t else t)) s

/-- ENC_RECOVERY (R4): a good run that has reached 8 makes the side's condition inactive. -/
def execEncRecovery (side : Side) (s : State) : Host.Outcome State Fault Refusal :=
  event (whileAccepted (fun _ t => recoverEncoder side t)) s

end Sys2Proof.Machine
end

