-- ==== Sys2Proof/Machine/Levels.lean ====
section
/-! DEFINITION. The Level Unit and the Tide Monitor's evaluation (chapter 2); the events LEVEL_SAMPLE, LEVEL_FAULT, LEVEL_RECOVERY and
TIDE_QUALIFIED. -/

namespace Sys2Proof.Machine

/-- A rail code (R16). -/
def isRail (code : Nat) : Bool := code ≤ 16 || 65519 ≤ code

/-- The level of a good code (R16). -/
def scaleLevel (p : Params) (code : Nat) : Int := p.lvlOffset + ((code * p.lvlSpan / 65536 : Nat) : Int)

/-- A good sample joins the ring, which holds the last 8 (R18). -/
def pushRing (x : Int) (ring : List Int) : List Int := (ring ++ [x]).drop (ring.length + 1 - 8)

/-- The filtered level: floor of the mean, absent with an empty ring (R18). -/
def filteredOf (ring : List Int) : Option Int :=
  if ring.length = 0 then none else some (floorDiv (sumInt ring) ring.length)

/-- A channel's runs and ring after a code, its condition being active or not (R17, R18). -/
def sampleChannel (p : Params) (active : Bool) (code : Nat) (c : Channel) : Channel :=
  if isRail code then { c with railRun := countTo 255 c.railRun, goodRun := 0, filtered := filteredOf c.ring }
  else
    { c with
      railRun := 0, goodRun := if active then countTo 8 c.goodRun else 0,
      ring := pushRing (scaleLevel p code) c.ring, filtered := filteredOf (pushRing (scaleLevel p code) c.ring) }

/-- The channel of the Level Unit. -/
def channelOf (c : ChannelId) (l : LevelUnit) : Channel :=
  match c with
  | .upstream => l.up
  | .downstream => l.dn

/-- The channel replaced. -/
def setChannel (c : ChannelId) (x : Channel) (l : LevelUnit) : LevelUnit :=
  match c with
  | .upstream => { l with up := x }
  | .downstream => { l with dn := x }

/-- A rail run has reached 3 (R17). -/
def channelFails (c : Channel) : Bool := 3 ≤ c.railRun

/-- A channel's condition becomes inactive and its good run returns to 0 when that run has reached 8 (R17). -/
def recoverChannel (c : ChannelId) (s : State) : State :=
  let x := channelOf c s.level
  if 8 ≤ x.goodRun && condition (channelKind c) s then
    clearKinds [channelKind c] (s.withLevel (setChannel c { x with goodRun := 0 } s.level))
  else s

/-- The level used on a channel and its source (R19). -/
def selectLevel (c : ChannelId) (s : State) : Option Int × LevelSource :=
  let x := channelOf c s.level
  match x.filtered, condition (channelKind c) s with
  | some l, false => (some l, .own)
  | _, _ =>
    match median (peerLevels c s) with
    | some l => (some l, .peer)
    | none => (none, .absent)

/-- A channel with its level selected (R19). -/
def selectedChannel (c : ChannelId) (s : State) : Channel :=
  { channelOf c s.level with used := (selectLevel c s).1, source := (selectLevel c s).2 }

/-- The head (R21). -/
def headOfLevels (up dn : Option Int) : Option Int :=
  match up, dn with
  | some a, some b => some (a - b)
  | _, _ => none

/-- Both levels selected and the head formed (R19, R21). -/
def selectLevels (s : State) : State :=
  s.withLevel
    { up := selectedChannel .upstream s, dn := selectedChannel .downstream s,
      head := headOfLevels (selectLevel .upstream s).1 (selectLevel .downstream s).1 }

/-- The candidate counter has reached TIDE_QUALIFY: the window toggles in a DETECTED event (R24). -/
def qualifyTide (p : Params) (s : State) : State :=
  if p.tideQualify ≤ s.tide.candidate then
    match s.tide.window with
    | .closed => makeTideEvent .opens .detected s.level.head s
    | .opened => makeTideEvent .closes .detected s.level.head s
    | .undecided => s
  else s

/-- The candidate counter after a sample with head (R24). -/
def candidateAfter (p : Params) (w : Window) (head : Int) (n : Nat) : Nat :=
  match w with
  | .closed => if p.headOpen ≤ head then n + 1 else 0
  | .opened => if head ≤ p.headClose then n + 1 else 0
  | .undecided => 0

/-- The Tide Monitor evaluates the head of a sample (R23 to R25). -/
def evalTide (p : Params) (s : State) : State :=
  match s.level.head with
  | none => s.withTide { s.tide with candidate := 0, blind := true }
  | some h =>
    let sighted := s.withTide { s.tide with blind := false }
    match s.tide.window with
    | .undecided => setWindow (if p.headOpen ≤ h then .opened else .closed) sighted
    | w => qualifyTide p (sighted.withTide { sighted.tide with candidate := candidateAfter p w h s.tide.candidate })

/-- The level condition of the storm demand (R154). -/
def levelStorms (p : Params) (s : State) : Bool :=
  match s.level.dn.used with
  | some x => p.stormLevel ≤ x
  | none => false

/-- The kinds a level sample raises, in kind order (R17, R162). -/
def levelFaults (s : State) : List FaultKind :=
  (if channelFails s.level.up then [.levelUp] else []) ++ (if channelFails s.level.dn then [.levelDn] else [])

/-- A level sample up to the head and the tide (R15): codes, channels, conditions, levels used, head, Tide Monitor. -/
def sampleLevels (img : Image) (upCode downCode : Half) (s : State) : State :=
  let sampled := s.withLevel
    { s.level with
      up := sampleChannel img.params (condition .levelUp s) upCode.toNat s.level.up
      dn := sampleChannel img.params (condition .levelDn s) downCode.toNat s.level.dn }
  let judged := raise (levelFaults sampled) (recoverChannel .downstream (recoverChannel .upstream sampled))
  evalTide img.params (selectLevels judged)

/-- A whole level sample (R15, R154): the level condition of the storm demand is evaluated at its end. -/
def levelSample (img : Image) (upCode downCode : Half) (s : State) : State :=
  let t := sampleLevels img upCode downCode s
  setConditions t.modeCtl.condOrder t.modeCtl.condInput (levelStorms img.params t) t

/-- The sample clock at a sample: the next is due 1000 ms after the moment at which this one was (R15). -/
def nextSample (s : State) : State := s.withClocks { s.clocks with sample := s.clocks.sample - Config.sampleMs }

/-- LEVEL_SAMPLE (R15): the time runs on to the sample's moment. -/
def execLevelSample (upCode downCode : Half) (s : State) : Host.Outcome State Fault Refusal :=
  event (whileAccepted (fun img t =>
    levelSample img upCode downCode (nextSample (runOn t.clocks.sample Config.sampleMs t)))) s

/-- LEVEL_FAULT (R17): a rail run that has reached 3 makes the channel's condition active. -/
def execLevelFault (channel : ChannelId) (s : State) : Host.Outcome State Fault Refusal :=
  event (whileAccepted (fun _ t =>
    if channelFails (channelOf channel t.level) then raise [channelKind channel] t else t)) s

/-- LEVEL_RECOVERY (R17): a good run that has reached 8 makes the channel's condition inactive. -/
def execLevelRecovery (channel : ChannelId) (s : State) : Host.Outcome State Fault Refusal :=
  event (whileAccepted (fun _ t => recoverChannel channel t)) s

/-- TIDE_QUALIFIED (R24). -/
def execTideQualified (s : State) : Host.Outcome State Fault Refusal :=
  event (whileAccepted (fun img t => qualifyTide img.params t)) s

end Sys2Proof.Machine
end

