-- ==== Sys2Proof/Machine/PeerTable.lean ====
section
/-! DEFINITION. The Peer Table's own events: PEER_AGEING, DUPLICATE_CLEAR, ALONE. -/

namespace Sys2Proof.Machine

/-- The freshness class of an age in 10 ms units at a report period in ms (R37). -/
def freshnessOf (age period : Nat) : Freshness :=
  if age * 10 < 3 * period then .fresh else if age * 10 < 10 * period then .stale else .lost

/-- A row after one ageing step (R37): a filled row counts its age and takes its freshness from it; an EMPTY row stays as it is. -/
def ageRow (r : TableRow) : TableRow :=
  match r.content with
  | none => r
  | some c =>
    let age := countTo 65535 r.age
    { age := age, content := some { c with freshness := freshnessOf age c.period } }

/-- The ageing step over the whole table (R37). -/
def ageRows (s : State) : State := s.withPeers { s.peers with rows := s.peers.rows.map ageRow }

/-- The ageing clock at a step: the next is due 10 ms after the moment at which this one was (R37). -/
def nextAgeing (s : State) : State := s.withClocks { s.clocks with age := s.clocks.age - Config.ageMs }

/-- PEER_AGEING (R37): the time runs on to the step's moment. -/
def execPeerAgeing (s : State) : Host.Outcome State Fault Refusal :=
  event (whileAccepted (fun _ t => ageRows (nextAgeing (runOn t.clocks.age Config.ageMs t)))) s

/-- DUPLICATE_CLEAR (R36): while the duplicate timer runs the time runs on until it has reached 10 × REPORT_PERIOD; DUPLICATE becomes
inactive and the timer stops. -/
def execDuplicateClear (s : State) : Host.Outcome State Fault Refusal :=
  event (whileAccepted (fun img t =>
    match t.peers.duplicateTimer with
    | some age =>
      let later := runOn age (10 * img.params.reportPeriod) t
      clearKinds [.duplicate] (later.withPeers { later.peers with duplicateTimer := none })
    | none => t)) s

/-- ALONE (R40): where the layout has another station present, the time runs on until the line-silent timer has reached 10 ×
REPORT_PERIOD, and ALONE becomes active. -/
def execAlone (s : State) : Host.Outcome State Fault Refusal :=
  event (whileAccepted (fun img t =>
    if hasPeers img t then raise [.alone] (runOn t.line.lineSilent (10 * img.params.reportPeriod) t) else t)) s

end Sys2Proof.Machine
end

