-- ==== Sys2Proof/Machine/Receive.lean ====
section
/-! DEFINITION. Frames received: what every arrival shares (R174, R176), and the events ORDER_FRAME, STATE_FRAME, TIDE_FRAME and
FRAME_DROPPED. -/

namespace Sys2Proof.Machine

/-- The receiver takes frames: the Line Interface works, the station has no frame of its own on the line (R171), and it does not wait for
the next idle (R174). A station that its line does not follow is among the receivers by the model's choice (log 42). -/
def receiving (s : State) : Bool := lineWorks s && s.line.sending.isNone && !s.line.awaitIdle

/-- A frame has just ended on the line: it is not idle (R170), it was recessive at the stop bit (R173), and the receiver takes no frame
before the next idle (R174). -/
def lineBusy (s : State) : State := s.withLine { s.line with idle := false, awaitIdle := true, dominantRun := none }

/-- The arrival of a valid frame (R176): the line-silent timer restarts and ALONE ends (R40). -/
def frameArrives (s : State) : State :=
  let t := lineBusy s
  clearKinds [.alone] (t.withLine { t.line with lineSilent := 0 })

/-- A frame dropped at arrival counts once and is delivered to no block (R174). -/
def dropAtArrival (s : State) : State := countError (lineBusy s)

/-- A frame with this SOURCE arrives whole: taken as `f` says, or dropped for a SOURCE above 23 (R174); nothing where the receiver takes
no frame. The line-silent timer restarts and ALONE ends before the frame is handed on (log 36). -/
def arrival (source : Byte) (f : State → State) (s : State) : State :=
  if receiving s then (if 23 < source.toNat then dropAtArrival s else f (frameArrives s)) else s

/-! ### ORDER frames -/

/-- An offered order is treated after the check of its number (R54, R57): ignored for want of authority or if it is not newer, else
adopted, with the weir clock set where the order came in a frame. -/
def offerOrder (img : Image) (kind : OrderKind) (f : OfferedOrder) (time : Option (Nat × Nat)) (s : State) : State :=
  if authorityOf img f.origin < 2 then s
  else if newer f.number f.origin s.order.adopted then
    adopt (inRange img kind f) (match time with | some t => setClock t s | none => s)
  else s

/-- An ORDER frame at the Order Unit (R54); ignored without a count after a rejected image (R70). -/
def takeOrderFrame (source : Nat) (payload : List Byte) (s : State) : State :=
  match acceptedImage s with
  | none => s
  | some img =>
    if source ≤ 15 then countError s
    else
      match orderKindOfCode (orderOfPayload source payload).kindCode with
      | none => countError s
      | some k =>
        if (orderOfPayload source payload).number = 0 then s
        else offerOrder img k (orderOfPayload source payload) (some (weirTimeOfPayload payload)) s

/-- ORDER_FRAME (R54). -/
def execOrderFrame (source : Byte) (payload : List Byte) (s : State) : Host.Outcome State Fault Refusal :=
  event (fun t =>
    if payload.length = payloadLength kindOrder then arrival source (takeOrderFrame source.toNat payload) t
    else if receiving t then dropAtArrival t else t) s

/-! ### STATE frames -/

/-- The content a STATE frame gives its row (R35). -/
def rowOf (f : StateFrame) : PeerRow :=
  { freshness := .fresh, period := clampNat 200 2000 f.reportPeriod, moveState := f.moveState, ticket := f.ticket,
    available := f.available, isolated := f.isolated, opening := f.opening, upLevel := f.upLevel, upOwn := f.upOwn,
    dnLevel := f.dnLevel, dnOwn := f.dnOwn, keyNumber := f.orderNumber, keyOrigin := f.orderOrigin }

/-- The row of a station is refreshed: its content from the frame, its age 0 (R35). -/
def refreshRow (source : Nat) (f : StateFrame) (s : State) : State :=
  s.withPeers { s.peers with rows := s.peers.rows.set source { age := 0, content := some (rowOf f) } }

/-- An echoed order at the Order Unit (R57). -/
def takeEcho (img : Image) (f : OfferedOrder) (s : State) : State :=
  if f.number = 0 then s
  else
    match orderKindOfCode f.kindCode with
    | none => countError s
    | some k => if f.origin < 16 ∨ 23 < f.origin then countError s else offerOrder img k f none s

/-- DUPLICATE becomes active, or stays so, and its timer restarts (R36). -/
def raiseDuplicate (s : State) : State :=
  raise [.duplicate] (s.withPeers { s.peers with duplicateTimer := some 0 })

/-- A STATE frame at the Peer Table (R34); discarded without a count after a rejected image (R49). -/
def takeStateFrame (source : Nat) (f : StateFrame) (s : State) : State :=
  match acceptedImage s with
  | none => s
  | some img =>
    if source = s.loader.strap then raiseDuplicate s
    else if source ≤ 15 ∧ rowConfigured img source s then takeEcho img (echoOf f) (refreshRow source f s)
    else countError s

/-- STATE_FRAME (R34): dropped at arrival where its length or a code will not do (R174, R185). -/
def execStateFrame (source : Byte) (payload : List Byte) (s : State) : Host.Outcome State Fault Refusal :=
  event (fun t =>
    match stateOfPayload payload with
    | some f => arrival source (takeStateFrame source.toNat f) t
    | none => if receiving t then dropAtArrival t else t) s

/-! ### TIDE frames -/

/-- A TIDE frame at the Tide Monitor (R26). -/
def takeTideFrame (source : Nat) (r : TideRecord) (s : State) : State :=
  if s.tide.blind && rowFresh source s then
    match s.tide.window with
    | .undecided => setWindow (windowOf r.kind) s
    | w => if w = windowOf r.kind then s else makeTideEvent r.kind .peer none s
  else s

/-- TIDE_FRAME (R26): dropped at arrival where its length or a code will not do (R174, R185). -/
def execTideFrame (source : Byte) (payload : List Byte) (s : State) : Host.Outcome State Fault Refusal :=
  event (fun t =>
    match tideOfPayload payload with
    | some r => arrival source (takeTideFrame source.toNat r) t
    | none => if receiving t then dropAtArrival t else t) s

/-! ### Frames dropped -/

/-- What a receiver's line finds of a fault (R174): a fault before the last character makes it wait for the next idle; a dominant stop
bit has the line dominant, a frame cut off has it idle. -/
def dropFrame (what : Reception) (s : State) : State :=
  match what with
  | .stopBitDominant =>
    countError (s.withLine { s.line with idle := false, awaitIdle := true, dominantRun := some 0 })
  | .cutOff => countError (s.withLine { s.line with idle := true, awaitIdle := false, dominantRun := none })
  | .lengthOver => countError (s.withLine { s.line with idle := false, awaitIdle := true, dominantRun := none })
  | .arrived bytes => if arrivalFault bytes then dropAtArrival s else s

/-- FRAME_DROPPED (R174): the frame counts once and is delivered to no block. -/
def execFrameDropped (what : Reception) (s : State) : Host.Outcome State Fault Refusal :=
  event (fun t => if receiving t then dropFrame what t else t) s

end Sys2Proof.Machine
end

