-- ==== Sys2Proof/Machine/Commands.lean ====
section
/-! DEFINITION. COMMAND frames (section 4.7): what every command shares (R62, R63, R70), and the events RESUME, FINISH_AT_HOLD, TIDE_EVENT,
ABANDON, CLEAR_FAULT, CLEAR_COUNTS, RESTART and UNKNOWN_COMMAND. -/

namespace Sys2Proof.Machine

/-- The last-command record is written, and the mark set (R63). -/
def answer (source tag code : Nat) (result : CommandResult) (s : State) : State :=
  setMark (s.withOrder { s.order with lastCommand := some { source := source, tag := tag, code := code, result := result } })

/-- The first two cases of R62: a station's frame is dropped and counted, another's is ignored. -/
def addressed (source target : Nat) (f : State → State) (s : State) : State :=
  if source ≤ 15 then countError s else if target = 255 ∨ target = s.loader.strap then f s else s

/-- The authority check of R62 and R53, answered REFUSED_AUTHORITY; no console has authority after a rejected image (R70). -/
def authorised (source tag code level : Nat) (f : Image → State → State) (s : State) : State :=
  match acceptedImage s with
  | none => answer source tag code .refusedAuthority s
  | some img => if authorityOf img source < level then answer source tag code .refusedAuthority s else f img s

/-- A command is carried out, and answered with the result the owning block gives (R62). -/
def carryOut (source tag code : Nat) (act : State → State × CommandResult) (s : State) : State :=
  answer source tag code (act s).2 (act s).1

/-- The arrival of a COMMAND frame with the code of a command of this level that is answered (R62). -/
def command (source target tag : Byte) (code level : Nat) (act : State → State × CommandResult) (s : State) : State :=
  arrival source
    (addressed source.toNat target.toNat
      (authorised source.toNat tag.toNat code level (fun _ t => carryOut source.toNat tag.toNat code act t))) s

/-! ### The COMMAND payload (R186) -/

/-- The event that a COMMAND frame of four payload bytes stands for: target, code, argument and tag at the offsets 0 to 3, the command picked
by its code, UNKNOWN_COMMAND for a code that is none of the seven (R62, R185, R186). A frame of another length is dropped at reception, which
is FRAME_DROPPED (R174). `straps` are the strap pins, which the reset of a RESTART samples. -/
def eventOfCommand (source : Byte) (payload : List Byte) (straps : BitVec 4) : Option Instr :=
  match payload with
  | [target, code, argument, tag] =>
    some
      (if code.toNat = codeResume then .resume source target argument tag
       else if code.toNat = codeFinishAtHold then .finishAtHold source target argument tag
       else if code.toNat = codeTideEvent then .tideEvent source target argument tag
       else if code.toNat = codeAbandon then .abandon source target argument tag
       else if code.toNat = codeClearFault then .clearFault source target argument tag
       else if code.toNat = codeClearCounts then .clearCounts source target argument tag
       else if code.toNat = codeRestart then .restart source target argument tag straps
       else .unknownCommand source target code argument tag)
  | _ => none

/-! ### What each command does -/

/-- RESUME at the Plan Sequencer (R64, R143). -/
def doResume (s : State) : State × CommandResult :=
  if s.plan.state = .held ∧ s.modeCtl.mode = .auto then (resumePlan s, .done) else (s, .refusedState)

/-- FINISH_AT_HOLD at the Plan Sequencer (R65). -/
def doFinishAtHold (s : State) : State × CommandResult :=
  if s.plan.state = .running then (s.withPlan { s.plan with finishAtHold := true }, .done) else (s, .refusedState)

/-- TIDE_EVENT at the Tide Monitor (R27). -/
def doTideEvent (argument : Nat) (s : State) : State × CommandResult :=
  match tideKindOfCode argument with
  | none => (s, .unknown)
  | some k => if s.tide.window = windowOf k then (s, .refusedState) else (makeTideEvent k .manual s.level.head s, .done)

/-- The saved plan becomes IDLE with the live one (R158); the saved expected kind is kept. -/
def abandonSaved (c : StormSave) : StormSave :=
  { c with state := .idle, number := none, interp := .cleared, queue := [], current := none, dwell := 0 }

/-- An ABANDON taken in FAULT acts on a storm save that is held (R158). -/
def abandonSave (s : State) : State :=
  if s.modeCtl.mode = .fault then s.withModeCtl { s.modeCtl with save := s.modeCtl.save.map abandonSaved } else s

/-- The deferred plan action is cleared (R66). -/
def clearDeferred (s : State) : State := s.withOrder { s.order with deferred := false }

/-- ABANDON at the Plan Sequencer (R66, R141, R158). -/
def doAbandon (s : State) : State × CommandResult :=
  if s.modeCtl.mode = .storm then (s, .refusedState)
  else if s.plan.state = .running ∨ s.plan.state = .held then (clearDeferred (abandonSave (abandonPlan s)), .done)
  else if s.order.deferred then (clearDeferred s, .done)
  else (s, .refusedState)

/-- The mode leaves FAULT when no stop-class kind is left latched (R164). -/
def leaveFault (s : State) : State :=
  if s.modeCtl.mode = .fault ∧ hasStopClass s.modeCtl.latched = false then
    enterMode (if stormDemand s then .storm else keyMode s) s
  else s

/-- CLEAR_FAULT at the Mode Controller (R163, R164). -/
def doClearFault (s : State) : State × CommandResult :=
  if s.modeCtl.latched &&& s.modeCtl.active = s.modeCtl.latched then (s, .refusedState)
  else (leaveFault (unlatch (s.modeCtl.latched &&& s.modeCtl.active) s), .done)

/-- CLEAR_COUNTS at the Line Interface (R67). -/
def doClearCounts (s : State) : State × CommandResult := (s.withLine { s.line with errors := 0 }, .done)

/-- RESTART (R68, R180): a reset of cause RESTART, which ends at once with the straps as given. -/
def doRestart (straps : BitVec 4) (s : State) : State := (State.initial .restart false straps.toNat).withPending s.pending

/-! ### The events -/

/-- RESUME (R64), level 1. -/
def execResume (source target _argument tag : Byte) (s : State) : Host.Outcome State Fault Refusal :=
  event (command source target tag codeResume 1 doResume) s

/-- FINISH_AT_HOLD (R65), level 1. -/
def execFinishAtHold (source target _argument tag : Byte) (s : State) : Host.Outcome State Fault Refusal :=
  event (command source target tag codeFinishAtHold 1 doFinishAtHold) s

/-- TIDE_EVENT (R27), level 1. -/
def execTideEvent (source target argument tag : Byte) (s : State) : Host.Outcome State Fault Refusal :=
  event (command source target tag codeTideEvent 1 (doTideEvent argument.toNat)) s

/-- ABANDON (R66), level 2. -/
def execAbandon (source target _argument tag : Byte) (s : State) : Host.Outcome State Fault Refusal :=
  event (command source target tag codeAbandon 2 doAbandon) s

/-- CLEAR_FAULT (R163), level 2. -/
def execClearFault (source target _argument tag : Byte) (s : State) : Host.Outcome State Fault Refusal :=
  event (command source target tag codeClearFault 2 doClearFault) s

/-- CLEAR_COUNTS (R67), level 2. -/
def execClearCounts (source target _argument tag : Byte) (s : State) : Host.Outcome State Fault Refusal :=
  event (command source target tag codeClearCounts 2 doClearCounts) s

/-- RESTART (R68), level 3: carried out, it writes no answer. -/
def execRestart (source target _argument tag : Byte) (straps : BitVec 4) (s : State) : Host.Outcome State Fault Refusal :=
  event (arrival source
    (addressed source.toNat target.toNat
      (authorised source.toNat tag.toNat codeRestart 3 (fun _ t => doRestart straps t)))) s

/-- UNKNOWN_COMMAND (R62): the record is written with the code as received, before any authority check, and also after a rejected image
(R70). With one of the seven codes the event cannot occur, and nothing happens. -/
def execUnknownCommand (source target code _argument tag : Byte) (s : State) : Host.Outcome State Fault Refusal :=
  event (fun t =>
    if isCommandCode code.toNat then t
    else
      arrival source
        (addressed source.toNat target.toNat (answer source.toNat tag.toNat code.toNat .unknown)) t) s

end Sys2Proof.Machine
end

