-- ==== Sys2Proof/Machine/DriveUnit.lean ====
section
/-! DEFINITION. The Drive Unit's evaluation (chapter 7): readback, setpoint ramp, valve commands and codes, stall window, skew trip. -/

namespace Sys2Proof.Machine

/-- The speed of a speed class, µm per control tick (R108). -/
def speedOf (img : Image) (c : SpeedClass) : Nat :=
  match c with
  | .step v => if v = 0 then img.params.defaultSpeed else v
  | .standard => img.params.defaultSpeed
  | .loc => img.params.localSpeed
  | .maint => img.params.maintSpeed
  | .storm => img.params.stormSpeed

/-- The setpoint after one ramp toward a goal in µm (R109). -/
def ramp (setpoint goal speed : Nat) : Nat :=
  if goal + speed < setpoint then setpoint - speed else if setpoint + speed < goal then setpoint + speed else goal

/-- The control error, µm (R110). -/
def controlError (setpoint opening : Nat) : Int := (setpoint : Int) - (opening : Int) * 1000

/-- The base command (R110). -/
def baseCommand (kp : Nat) (e : Int) : Int := clampInt (-1000) 1000 (truncDiv (e * kp) 1000)

/-- The skew trim (R111). -/
def trimOf (ks : Nat) (skew : Int) : Int := truncDiv (skew * ks) 10

/-- End-stop forcing of a command by the limit samples (R11). -/
def forced (upper lower : Bool) (c : Int) : Int := if (upper && 0 < c) || (lower && c < 0) then 0 else c

/-- The valve command of a side (R111, R11). -/
def valveCommand (d : Side) (base trim : Int) (upper lower : Bool) : Int :=
  forced upper lower (clampInt (-1000) 1000 (match d with | .left => base - trim | .right => base + trim))

/-- The converter code of a command with a side's null trim (R112). -/
def converterCode (command null : Int) : Nat :=
  (clampInt 0 16383 ((Config.nullCode : Int) + truncDiv (command * 8191) 1000 + null)).toNat

/-- A mismatch run after one checked evaluation (R113): the upper 14 bits of the conversion against the code that stands. -/
def mismatchRun (tol code : Nat) (conversion : Half) (run : Nat) : Nat :=
  if tol < ((conversion.toNat / 4 : Nat) - (code : Int)).natAbs then countTo 5 run else 0

/-- The readback check, when drive enable is asserted (R113). -/
def checkReadback (img : Image) (rbL rbR : Half) (s : State) : State :=
  if s.grant.driveEnable then
    s.withDrive
      { s.drive with
        runL := mismatchRun img.params.valveTol s.drive.codeL rbL s.drive.runL
        runR := mismatchRun img.params.valveTol s.drive.codeR rbR s.drive.runR }
  else s

/-- The base command is not driven hard (R115). -/
def notDrivenHard (base : Int) : Bool := base.natAbs < 300

/-- The gate has moved 5 mm or more since the window's start (R115). -/
def hasMoved (w : StallWindow) (opening : Nat) : Bool := 5 ≤ ((opening : Int) - w.startOpening).natAbs

/-- The stall window after an evaluation in MOVING (R115), from the base command just formed. -/
def stallWindowNow (base : Int) (opening : Nat) (w : Option StallWindow) : Option StallWindow :=
  match w with
  | none => none
  | some w =>
    if notDrivenHard base || hasMoved w opening then some { age := 0, startOpening := opening } else some w

/-- The stall window runs out at this evaluation (R115). -/
def stallRunsOut (img : Image) (base : Int) (opening : Nat) (w : Option StallWindow) : Bool :=
  match w with
  | none => false
  | some w => !(notDrivenHard base || hasMoved w opening) && img.params.stallTime * 1000 ≤ w.age

/-- The Drive Unit in MOVING: ramp, base command, valve commands, codes, stall window (R106, R109 to R112, R115). -/
def driveMoving (img : Image) (s : State) : Drive :=
  let setpoint := ramp s.drive.setpoint (s.target.effective * 1000) (speedOf img s.target.speed)
  let base := baseCommand img.params.kp (controlError setpoint s.position.opening)
  let trim := trimOf img.params.ks s.position.skew
  let cmdL := valveCommand .left base trim s.position.upper s.position.lower
  let cmdR := valveCommand .right base trim s.position.upper s.position.lower
  { s.drive with
    setpoint := setpoint, base := base, cmdL := cmdL, cmdR := cmdR,
    codeL := converterCode cmdL img.nullL, codeR := converterCode cmdR img.nullR,
    stall := stallWindowNow base s.position.opening s.drive.stall }

/-- The Drive Unit outside MOVING: both commands 0, both codes null (R106, R112). -/
def driveHeld (s : State) : Drive :=
  { s.drive with cmdL := 0, cmdR := 0, codeL := nullCode .left s, codeR := nullCode .right s }

/-- Both sides are good (R117). -/
def bothGood (s : State) : Bool := sideGood .left s && sideGood .right s

/-- The skew is beyond SKEW_TRIP (R117). -/
def skewBeyond (img : Image) (s : State) : Bool := img.params.skewTrip < s.position.skew.natAbs

/-- The kinds one Drive Unit evaluation raises, in kind order (R113, R115, R117, R162). -/
def driveFaults (img : Image) (stalled : Bool) (s : State) : List FaultKind :=
  (if bothGood s && skewBeyond img s then [.skew] else []) ++
    (if 5 ≤ s.drive.runL then [.valveL] else []) ++ (if 5 ≤ s.drive.runR then [.valveR] else []) ++
    (if stalled then [.stall] else [])

/-- SKEW becomes inactive at an evaluation that finds the skew within SKEW_TRIP with both sides good (R117). -/
def clearSkew (img : Image) (s : State) : State := if bothGood s && !skewBeyond img s then clearKinds [.skew] s else s

/-- The Drive Unit's evaluation at a control tick (R106): readback, then ramp and commands or rest, then the skew trip; the kinds it
raises enter together (R162). -/
def evalDrive (img : Image) (rbL rbR : Half) (s : State) : State :=
  let checked := checkReadback img rbL rbR s
  let moving := checked.grant.moveState == .moving
  let driven := checked.withDrive (if moving then driveMoving img checked else driveHeld checked)
  let stalled := moving && stallRunsOut img driven.drive.base checked.position.opening checked.drive.stall
  raise (driveFaults img stalled driven) (clearSkew img driven)

end Sys2Proof.Machine
end

