-- ==== Sys2Proof/Machine/GrantUnit.lean ====
section
/-! DEFINITION. The Grant Unit's evaluation (chapter 6). -/

namespace Sys2Proof.Machine

/-- Admission (R90). -/
inductive Admission
  | refused
  | throughGrant
  | bypass (lead : Nat)
  deriving DecidableEq, Repr

/-- The first row of R90 that applies. -/
def admission (img : Image) (s : State) : Admission :=
  if !s.position.established then .refused
  else
    match s.modeCtl.mode with
    | .start | .fault => .refused
    | .maint => .bypass (bypassLead img .maint)
    | .storm => .bypass (bypassLead img .storm)
    | .auto => if haltInForce s then .refused else if condition .alone s then .refused else .throughGrant
    | .loc => if condition .alone s then .refused else .throughGrant

/-- A timer has elapsed: its interval has passed in full since it started (R88). -/
def elapsed (timer : Option Nat) (limit : Nat) : Bool :=
  match timer with
  | some t => limit ≤ t
  | none => false

/-- The ticket taken on entering WANT (R92). -/
def newTicket (s : State) : Nat := min 65535 (highestTicket s + 1)

/-- Entry into WANT (R91, R92, R94). -/
def enterWant (s : State) : State :=
  setLimited false
    (s.withGrant
      { claimIn .want s.grant with moveKind := .granted, ticket := newTicket s, announceTimer := some 0 })

/-- An evaluation in STILL (R91). -/
def evalStill (img : Image) (s : State) : State :=
  if s.target.offTarget then
    match admission img s with
    | .refused => s
    | .throughGrant => enterWant s
    | .bypass lead =>
      let w := enterWarn .bypass lead s
      setLimited false (w.withGrant { w.grant with ticket := 0 })
  else s

/-- A claim made through the grant is withdrawn (R95, R96). -/
def withdrawn (img : Image) (s : State) : Bool := !s.target.offTarget || admission img s != .throughGrant

/-- An evaluation in WANT (R95). -/
def evalWant (img : Image) (s : State) : State :=
  if withdrawn img s then standStill s
  else if !elapsed s.grant.announceTimer img.params.announceWait then s
  else if claimants s < img.params.moveLimit then enterWarn .granted (img.params.warnLead * 1000) s
  else s

/-- The pump timer starts if it is stopped (R98). -/
def startPump (s : State) : State :=
  if s.grant.pumpTimer.isNone then s.withGrant { s.grant with pumpTimer := some 0 } else s

/-- PUMP becomes active when the pump timer has reached PUMP_WAIT (R98). -/
def judgePump (img : Image) (s : State) : State :=
  if elapsed s.grant.pumpTimer (img.params.pumpWait * 1000) then raise [.pump] s else s

/-- The start of motion at an evaluation in WARN (R97, R98). -/
def proceed (img : Image) (pumpReady : Bool) (s : State) : State :=
  if !elapsed s.grant.warnTimer s.grant.warnLead then s
  else if pumpReady then enterMoving s
  else judgePump img (startPump s)

/-- A granted station in WARN returns to WANT with its ticket kept (R96). -/
def yieldClaim (s : State) : State :=
  s.withGrant { claimIn .want s.grant with warnTimer := none, pumpTimer := none }

/-- An evaluation in WARN (R96, R97, R100). -/
def evalWarn (img : Image) (pumpReady : Bool) (s : State) : State :=
  if s.grant.moveKind = .bypass then
    if !s.target.offTarget then standStill s else proceed img pumpReady s
  else if withdrawn img s then standStill s
  else if img.params.moveLimit ≤ yieldCount s then yieldClaim s
  else proceed img pumpReady s

/-- The end of motion (R100). -/
def moveEnded (s : State) : Bool := s.drive.setpoint == s.target.effective * 1000 && !s.target.offTarget

/-- The pump timer at an evaluation in MOVING (R98). PUMP_READY sampled active stops it, also where it has reached PUMP_WAIT (log 34). -/
def pumpInMotion (img : Image) (pumpReady : Bool) (s : State) : State :=
  if pumpReady then s.withGrant { s.grant with pumpTimer := none } else judgePump img (startPump s)

/-- An evaluation in MOVING (R98 to R100): the end of motion sets or clears LIMITED (R85), and is judged before the pump timer (log 35). -/
def evalMoving (img : Image) (pumpReady : Bool) (s : State) : State :=
  if moveEnded s then setLimited (s.target.effective != s.target.unclamped) (standStill s) else pumpInMotion img pumpReady s

/-- The Grant Unit's evaluation at a control tick (R88). -/
def evalGrant (img : Image) (pumpReady : Bool) (s : State) : State :=
  match s.grant.moveState with
  | .still => evalStill img s
  | .want => evalWant img s
  | .warn => evalWarn img pumpReady s
  | .moving => evalMoving img pumpReady s

end Sys2Proof.Machine
end

