-- ==== Sys2Proof/Machine/TargetUnit.lean ====
section
/-! DEFINITION. The Target Unit's evaluation (chapter 5): where the demand comes from, the share, the orifice relation, the step
targets, the hold and the neighbour clamp. -/

namespace Sys2Proof.Machine

/-- The conditions of the available flag (R76). -/
def availableNow (s : State) : Bool :=
  s.modeCtl.mode == .auto && s.order.adopted.isSome && orderApplies s && !haltInForce s &&
    !hasStopClass s.modeCtl.latched && !condition .alone s

/-- The share of a station of some rank among n (R77). -/
def shareOf (q n rank : Nat) : Nat := q / n + if rank < q % n then 1 else 0

/-- The share computed from the Peer Table (R77). -/
def computeShare (o : Order) (s : State) : Nat :=
  let others := sharers o s
  shareOf o.value (1 + others.length) (others.filter (fun n => n < s.loader.strap)).length

/-- The share after an evaluation: computed while available under a DISCHARGE order, else kept (R77). The station counts as available by the
conditions of R76 as they stand at this evaluation, not by the flag as the evaluation before left it (log 33). -/
def shareNow (s : State) : Nat :=
  match s.order.adopted with
  | some o => if availableNow s && o.kind == .discharge then computeShare o s else s.target.share
  | none => s.target.share

/-- The orifice opening for a share at a head, before its limit (R78). -/
def orificeOpening (img : Image) (share : Nat) (head : Int) : Nat :=
  let hEff := max head.toNat img.params.hMin
  share * 10000000 / (img.params.gateConstant * isqrt (hEff * 1000))

/-- An order value: an opening, or none where it is the HEAD hold, and whether a limit of the orifice arithmetic was reached (R75, R78,
R79). -/
structure OrderValue where
  value : Option Nat
  unmet : Bool
  deriving DecidableEq, Repr

/-- The order value of an adopted order that applies (R75, R78). -/
def orderValue (img : Image) (o : Order) (share : Nat) (s : State) : OrderValue :=
  match o.kind with
  | .close => { value := some 0, unmet := false }
  | .opening =>
    if o.tideLock && s.tide.window != .opened then { value := some 0, unmet := false }
    else { value := some (clampNat 0 img.params.openMax o.value), unmet := false }
  | .discharge =>
    if s.tide.window = .opened then
      match s.level.head with
      | none => { value := none, unmet := true }
      | some h =>
        if img.params.openMax < orificeOpening img share h then { value := some img.params.openMax, unmet := true }
        else { value := some (orificeOpening img share h), unmet := false }
    else { value := some 0, unmet := false }

/-- What a demand asks for: an opening, or a hold with its reason (R72, R73). -/
inductive Demand
  | opening (mm : Nat)
  | hold (reason : HoldReason)
  deriving DecidableEq, Repr

/-- An order value as a demand: the HEAD hold where it has no value (R78). -/
def demandOfValue (v : OrderValue) : Demand :=
  match v.value with
  | some a => .opening a
  | none => .hold .head

/-- The step start opening as an evaluation reads it (R80). -/
def stepStartOpening (s : State) : Nat :=
  match s.target.stepStart with
  | .recorded a => a
  | _ => s.position.opening

/-- An opening brought into 0..OPEN_MAX. -/
def intoTravel (img : Image) (x : Int) : Nat := (clampInt 0 img.params.openMax x).toNat

/-- The step value (R81). No plan comes to a step with an EMPTY record (R124), which would hold (log 39). -/
def stepDemand (img : Image) (r : StepRecord) (v : OrderValue) (s : State) : Demand :=
  match r.kind with
  | .order =>
    match v.value with
    | some a => .opening (intoTravel img a)
    | none => .hold .head
  | .orderPct =>
    match v.value with
    | some a => .opening (intoTravel img (floorDiv (a * r.value) 100))
    | none => .hold .head
  | .abs => .opening (intoTravel img r.value)
  | .rel => .opening (intoTravel img (stepStartOpening s + r.value))
  | .closed => .opening 0
  | .hold => .opening (intoTravel img (stepStartOpening s))
  | .empty => .hold .plan

/-- The pier buttons (R74). -/
def buttonDemand (img : Image) (raise lower : Bool) : Demand :=
  if raise && !lower then .opening img.params.openMax
  else if lower && !raise then .opening 0
  else .hold .button

/-- Where a tick's target comes from: the source, the speed class, the demand (R72). -/
structure Resolved where
  source : DemandSource
  speed : SpeedClass
  demand : Demand
  deriving DecidableEq, Repr

/-- The first row of R72 that applies, with its demand. -/
def resolveDemand (img : Image) (raise lower : Bool) (share : Nat) (s : State) : Resolved :=
  match s.modeCtl.mode with
  | .storm => { source := .storm, speed := .storm, demand := .opening 0 }
  | .fault | .start => { source := .hold, speed := .standard, demand := .hold .mode }
  | .loc => { source := .buttons, speed := .loc, demand := buttonDemand img raise lower }
  | .maint => { source := .buttons, speed := .maint, demand := buttonDemand img raise lower }
  | .auto =>
    match s.order.adopted with
    | none => { source := .hold, speed := .standard, demand := .hold .order }
    | some o =>
      if !orderApplies s then { source := .hold, speed := .standard, demand := .hold .order }
      else if o.plan = none then
        { source := .track, speed := .standard, demand := demandOfValue (orderValue img o share s) }
      else
        match s.plan.state, s.plan.current with
        | .running, some i =>
          { source := .step, speed := .step (stepAt img i).speed,
            demand := stepDemand img (stepAt img i) (orderValue img o share s) s }
        | _, _ => { source := .hold, speed := .standard, demand := .hold .plan }

/-- SHARE_UNMET after an evaluation (R79). -/
def shareUnmetNow (img : Image) (share : Nat) (s : State) : Bool :=
  match s.order.adopted with
  | some o => s.modeCtl.mode == .auto && orderApplies s && (orderValue img o share s).unmet
  | none => false

/-- The hold opening after an evaluation whose target is a hold for `r` (R73): captured when the hold begins, kept while it lasts, and
pending until the position is established. The reason alone says whether a hold lasts, so a BUTTON hold keeps its opening from LOCAL to
MAINT and back (log 32). -/
def captureHold (r : HoldReason) (s : State) : Option Nat :=
  let here := if s.position.established then some s.position.opening else none
  if s.target.reason = some r ∧ s.target.holdOpening.isSome then s.target.holdOpening else here

/-- The unclamped target, hold reason and hold opening that a demand gives (R73). -/
def unclampedOf (d : Demand) (s : State) : Nat × Option HoldReason × Option Nat :=
  match d with
  | .opening mm => (mm, none, s.target.holdOpening)
  | .hold r => ((captureHold r s).getD s.position.opening, some r, captureHold r s)

/-- The neighbour clamp (R82), from the openings of the neighbours that bound. -/
def neighbourClamp (img : Image) (openings : List Nat) (unclamped : Nat) : Nat :=
  match openings with
  | [] => intoTravel img unclamped
  | p :: rest =>
    let spread : Int := img.params.spread
    let lo := rest.foldl (fun (m : Int) x => max m ((x : Int) - spread)) ((p : Int) - spread)
    let hi := rest.foldl (fun (m : Int) x => min m ((x : Int) + spread)) ((p : Int) + spread)
    if lo ≤ hi then intoTravel img (clampInt lo hi unclamped) else intoTravel img (floorDiv (lo + hi) 2)

/-- The effective target (R82, R83). -/
def effectiveOf (img : Image) (unclamped : Nat) (s : State) : Nat :=
  if s.modeCtl.mode = .auto ∨ s.modeCtl.mode = .loc then neighbourClamp img (neighbourOpenings img s) unclamped else unclamped

/-- Two openings differ by more than DEADBAND (R84). -/
def departs (img : Image) (a b : Nat) : Bool := a + img.params.deadband < b || b + img.params.deadband < a

/-- The step start opening after an evaluation: a pending record is made once the position is established (R80). -/
def stepStartNow (s : State) : StepStart :=
  if s.target.stepStart = .pending ∧ s.position.established then .recorded s.position.opening else s.target.stepStart

/-- The Target Unit's evaluation at a control tick (R71). -/
def evalTarget (img : Image) (raise lower : Bool) (s0 : State) : State :=
  let s := s0.withTarget { s0.target with stepStart := stepStartNow s0 }
  let share := shareNow s
  let r := resolveDemand img raise lower share s
  let u := unclampedOf r.demand s
  let effective := effectiveOf img u.1 s
  let evaluated := s.withTarget
    { s.target with
      effective := effective, unclamped := u.1, source := r.source, reason := u.2.1, holdOpening := u.2.2,
      available := availableNow s, share := share, shareUnmet := shareUnmetNow img share s, speed := r.speed,
      offTarget := departs img effective s.position.opening, clamped := effective != u.1 }
  evaluated.withPlan { s.plan with aimJudged := true }

end Sys2Proof.Machine
end

