-- ==== Sys2Proof/Machine/Tick.lean ====
section
/-! DEFINITION. The control tick: CONTROL_TICK, and the events of the timers and counts that the blocks judge at their evaluations, each
the evaluation of one block at the tick at which its timer or counter has run out:
ANNOUNCE_WAIT, WARN_LEAD, PUMP_WAIT, VALVE_MISMATCH, STALL, DWELL_EXPIRED. -/

namespace Sys2Proof.Machine

/-! ### Evaluations made ahead of the tick (log 26) -/

/-- The moments up to which the Grant, the Drive and the Plan unit have made their evaluations. -/
def setGrantAhead (m : Nat) (s : State) : State := s.withClocks { s.clocks with grantAhead := m }
def setDriveAhead (m : Nat) (s : State) : State := s.withClocks { s.clocks with driveAhead := m }
def setPlanAhead (m : Nat) (s : State) : State := s.withClocks { s.clocks with planAhead := m }

/-- The first control tick, in ms from the last one taken, that lies `remaining` ms or more from now and at which a block that has evaluated up
to `ahead` evaluates next (R88, R106, R123: a timer is judged at the first evaluation at which its interval has passed in full). -/
def tickAfter (ahead remaining : Nat) (s : State) : Nat :=
  max (ahead + Config.tickMs) ((s.clocks.tick + remaining + (Config.tickMs - 1)) / Config.tickMs * Config.tickMs)

/-- The time runs on to a tick that lies `m` ms after the last one taken. -/
def runToTick (m : Nat) (s : State) : State := elapse (m - s.clocks.tick) s

/-- A block whose evaluation of this tick was made ahead of it does not evaluate again: each evaluates once at a tick (R88, R106, R123). -/
def unlessAhead (ahead : Nat) (f : State → State) (s : State) : State := if Config.tickMs ≤ ahead then s else f s

/-! ### The tick -/

/-- One block evaluates (R1, R71, R88, R106, R123, R148), unless a row of its own timer has made this tick's evaluation (log 26). -/
def evalBlock (img : Image) (inputs : TickInputs) (b : Block) (s : State) : State :=
  match b with
  | .position => evalPosition inputs s
  | .mode => sampleKeys inputs.maintKey inputs.localKey inputs.stormInput s
  | .target => evalTarget img inputs.raise inputs.lower s
  | .grant =>
    unlessAhead s.clocks.grantAhead (evalGrant img inputs.pumpReady) (setGrantAhead (s.clocks.grantAhead - Config.tickMs) s)
  | .drive =>
    unlessAhead s.clocks.driveAhead (evalDrive img inputs.readbackL inputs.readbackR)
      (setDriveAhead (s.clocks.driveAhead - Config.tickMs) s)
  | .plan => unlessAhead s.clocks.planAhead (evalPlan img) (setPlanAhead (s.clocks.planAhead - Config.tickMs) s)

/-- A list of blocks without the repeats: each stands where it stands first. -/
def firstOnly : List Block → List Block
  | [] => []
  | b :: bs => b :: (firstOnly bs).filter (fun c => c != b)

/-- The order of the evaluations at a tick (log 5): the blocks as named, then those not named; every block once. -/
def tickOrder (named : List Block) : List Block := firstOnly (named ++ Block.all)

/-- The blocks evaluate, one after another (R1). -/
def evalTick (img : Image) (inputs : TickInputs) (s : State) : State :=
  (tickOrder inputs.order).foldl (fun t b => evalBlock img inputs b t) s

/-- A read still in progress at the next tick ended without a reply, since its window is shorter than the tick (R2, log 7). -/
def endOpenReads (img : Image) (s : State) : State := failOpenRead img .right (failOpenRead img .left s)

/-- The tick clock at a tick: the next is due 60 ms after the moment at which this one was (R1). -/
def nextTick (s : State) : State := s.withClocks { s.clocks with tick := s.clocks.tick - Config.tickMs }

/-- A control tick of a station with an accepted image (R1): the time runs on to the tick's moment, and every block evaluates. -/
def takeTick (inputs : TickInputs) (img : Image) (s : State) : State :=
  evalTick img inputs (endOpenReads img (nextTick (hearLine inputs.line (runOn s.clocks.tick Config.tickMs s))))

/-- CONTROL_TICK (R1). After a rejected image there is no tick, and the row gives the Line Interface, which works (R179), the coming changes
of the line's level alone (log 40). -/
def execControlTick (inputs : TickInputs) (s : State) : Host.Outcome State Fault Refusal :=
  event (fun t =>
    match acceptedImage t with
    | some img => takeTick inputs img t
    | none => whileLineWorks (hearLine inputs.line) t) s

/-- The Grant Unit's evaluation at the first tick at which a timer with `remaining` ms to run has elapsed (R88). -/
def grantAtTick (img : Image) (pumpReady : Bool) (remaining : Nat) (s : State) : State :=
  let m := tickAfter s.clocks.grantAhead remaining s
  evalGrant img pumpReady (setGrantAhead m (runToTick m s))

/-- ANNOUNCE_WAIT (R94, R95): in WANT the time runs on to the first control tick at which the announce wait has elapsed, and the Grant Unit
makes its evaluation of that tick. PUMP_READY does not act in WANT. -/
def execAnnounceWait (s : State) : Host.Outcome State Fault Refusal :=
  event (whileAccepted (fun img t =>
    match t.grant.moveState, t.grant.announceTimer with
    | .want, some age => grantAtTick img false (img.params.announceWait - age) t
    | _, _ => t)) s

/-- WARN_LEAD (R96, R97): in WARN the time runs on to the first control tick at which the warning lead has elapsed, and the Grant Unit makes
its evaluation of that tick, with PUMP_READY as sampled there. -/
def execWarnLead (pumpReady : Bool) (s : State) : Host.Outcome State Fault Refusal :=
  event (whileAccepted (fun img t =>
    match t.grant.moveState, t.grant.warnTimer with
    | .warn, some age => grantAtTick img pumpReady (t.grant.warnLead - age) t
    | _, _ => t)) s

/-- PUMP_WAIT (R98): while the pump timer runs the time runs on to the first control tick at which it has reached PUMP_WAIT, and the Grant
Unit makes its evaluation of that tick, at which PUMP_READY is sampled inactive: a sample that is active stops the timer or starts the
motion, and the row's occasion does not arise (logs 18 and 34). -/
def execPumpWait (s : State) : Host.Outcome State Fault Refusal :=
  event (whileAccepted (fun img t =>
    match t.grant.pumpTimer with
    | some age => grantAtTick img false (img.params.pumpWait * 1000 - age) t
    | none => t)) s

/-- The mismatch run of a side. -/
def mismatchOf (d : Side) (x : Drive) : Nat :=
  match d with
  | .left => x.runL
  | .right => x.runR

/-- VALVE_MISMATCH (R113): a mismatch run that has reached 5 makes the side's condition active. -/
def execValveMismatch (side : Side) (s : State) : Host.Outcome State Fault Refusal :=
  event (whileAccepted (fun _ t => if 5 ≤ mismatchOf side t.drive then raise [valveKind side] t else t)) s

/-- The free samples taken so far are two more (log 37). -/
def countFreeSamples (s : State) : State := s.withClocks { s.clocks with freeSamples := s.clocks.freeSamples + 2 }

/-- The Drive Unit's evaluation at the first tick at which a stall window with `remaining` ms to run has run out (R106, R115). The two
readbacks it samples are free values, since the row carries none (R113; log 37). -/
def driveAtTick (img : Image) (remaining : Nat) (s : State) : State :=
  let m := tickAfter s.clocks.driveAhead remaining s
  let n := s.clocks.freeSamples
  evalDrive img (Config.freeReadback n) (Config.freeReadback (n + 1)) (countFreeSamples (setDriveAhead m (runToTick m s)))

/-- STALL (R115): in MOVING the time runs on to the first control tick at which STALL_TIME has elapsed since the window's start, and the
Drive Unit makes its evaluation of that tick: the window is judged on the base command formed then. -/
def execStall (s : State) : Host.Outcome State Fault Refusal :=
  event (whileAccepted (fun img t =>
    match t.grant.moveState, t.drive.stall with
    | .moving, some w => driveAtTick img (img.params.stallTime * 1000 - w.age) t
    | _, _ => t)) s

/-- The evaluations in DWELL that follow the next one until the counter reaches 0, in ms (R135): one for each further 60 ms begun. -/
def dwellRemaining (dwell : Nat) : Nat := (dwell - 1) / Config.tickMs * Config.tickMs

/-- The Plan Sequencer's evaluation at the tick at which a dwell counter reaches 0 (R123, R135): the next tick is the first evaluation, and
each of those between takes 60 ms from the counter. -/
def planAtTick (img : Image) (s : State) : State :=
  let m := tickAfter s.clocks.planAhead 0 s + dwellRemaining s.plan.dwell
  let later := setPlanAhead m (runToTick m s)
  evalPlan img (later.withPlan { later.plan with dwell := later.plan.dwell - dwellRemaining s.plan.dwell })

/-- DWELL_EXPIRED (R135): with a step in DWELL and HALT not in force, the time runs on to the control tick at which the dwell counter reaches
0, and the Plan Sequencer makes its evaluation of that tick: the phase passes to TIDE. -/
def execDwellExpired (s : State) : Host.Outcome State Fault Refusal :=
  event (whileAccepted (fun img t =>
    if t.plan.state = .running ∧ t.plan.phase = .dwell ∧ t.plan.current ≠ none ∧ haltInForce t = false then planAtTick img t
    else t)) s

end Sys2Proof.Machine
end

