-- ==== Sys2Proof/Machine/Reset.lean ====
section
/-! DEFINITION. Reset, the image read and the start of service (section 11.2): POWER_ON_RESET, RESET_END, IMAGE_READ_FAILED,
IMAGE_READ_RETRY, IMAGE_READ_COMPLETE. -/

namespace Sys2Proof.Machine

/-- The restart cause of a reset of the first kind (R180): POWER once the supply came up during it, PIN otherwise (log 27). -/
def resetCause (supply : Bool) (s : State) : RestartCause :=
  if supply || (s.loader.inReset && s.loader.cause == .power) then .power else .pin

/-- A power-on or the reset input begins a reset that lasts (R180): every block takes its initial state. The strap number is not
sampled before the end of the reset. -/
def beginReset (supply : Bool) (s : State) : State := (State.initial (resetCause supply s) true 0).withPending s.pending

/-- A reset that lasts ends (R180): the mode is START, the straps are sampled, and the image read begins. -/
def endReset (straps : BitVec 4) (s : State) : State :=
  if s.loader.inReset then (State.initial s.loader.cause false straps.toNat).withPending s.pending else s

/-- The end of the read with the image rejected (R166, R183): CONFIG active, latched and first, the mode FAULT. -/
def rejectImage (s : State) : State :=
  enterMode .fault (latchKinds [.config] (s.withLoader { s.loader with image := .rejected }))

/-- A failed attempt (R181): the next begins 10 ms later, or at the fourth the image is rejected. -/
def failAttempt (s : State) : State :=
  if s.loader.reading then
    let tried := s.withLoader { s.loader with attempts := s.loader.attempts + 1, reading := false }
    if tried.loader.attempts < Config.maxAttempts then tried.withLoader { tried.loader with retryTimer := some 0 }
    else rejectImage tried
  else s

/-- The wait after a failed attempt ends (R181): the time runs on to its end, and the next attempt begins. -/
def beginRetry (s : State) : State :=
  match s.loader.retryTimer with
  | none => s
  | some age =>
    let t := runOn age Config.retryMs s
    t.withLoader { t.loader with retryTimer := none, reading := true }

/-- The image is accepted: its content is held; the tick, sample, ageing and line-silent clocks start from 0 (R1, R15, R37, R40; log 11);
the converters take their null codes (R120), the setpoint the opening (R107). -/
def holdImage (img : Image) (s : State) : State :=
  let held := s.withLoader { s.loader with image := .accepted img }
  let clocks := { held.clocks with tick := 0, sample := 0, age := 0, grantAhead := 0, driveAhead := 0, planAhead := 0 }
  let started := (held.withClocks clocks).withLine { held.line with lineSilent := 0 }
  started.withDrive
    { started.drive with
      codeL := nullCode .left held, codeR := nullCode .right held, setpoint := held.position.opening * 1000 }

/-- The mode that follows START (R149). -/
def firstMode (s : State) : Mode :=
  if keyMode s ≠ .maint ∧ stormDemand s then .storm else keyMode s

/-- Acceptance (R183): the first sample of keys and STORM input, the first level sample, the mode, the first control tick (log 10). -/
def acceptImage (img : Image) (inputs : TickInputs) (upCode downCode : Half) (s : State) : State :=
  let sampled := sampleKeys inputs.maintKey inputs.localKey inputs.stormInput (holdImage img s)
  let levelled := levelSample img upCode downCode sampled
  evalTick img inputs (enterMode (firstMode levelled) levelled)

/-- An attempt transfers all 2048 bytes (R181, R182): the image is checked, and accepted or rejected. From here on the Line
Interface works (R179), with the other nodes' changes of the line's level as given (log 40). -/
def completeRead (bytes : List Byte) (inputs : TickInputs) (upCode downCode : Half) (s : State) : State :=
  if s.loader.reading ∧ bytes.length = Config.imageBytes then
    let tried := hearLine inputs.line (s.withLoader { s.loader with attempts := s.loader.attempts + 1, reading := false })
    match checkedImage s.loader.strap bytes with
    | some img => acceptImage img inputs upCode downCode tried
    | none => rejectImage tried
  else s

/-- POWER_ON_RESET (R180). -/
def execPowerOnReset (supply : Bool) (s : State) : Host.Outcome State Fault Refusal := event (beginReset supply) s

/-- RESET_END (R180). -/
def execResetEnd (straps : BitVec 4) (s : State) : Host.Outcome State Fault Refusal := event (endReset straps) s

/-- IMAGE_READ_FAILED (R181). -/
def execImageReadFailed (s : State) : Host.Outcome State Fault Refusal := event failAttempt s

/-- IMAGE_READ_RETRY (R181). -/
def execImageReadRetry (s : State) : Host.Outcome State Fault Refusal := event beginRetry s

/-- IMAGE_READ_COMPLETE (R182, R183). -/
def execImageReadComplete (bytes : List Byte) (inputs : TickInputs) (upCode downCode : Half) (s : State) :
    Host.Outcome State Fault Refusal :=
  event (completeRead bytes inputs upCode downCode) s

end Sys2Proof.Machine
end

