-- ==== Sys2Proof/Machine/WeirLine.lean ====
section
/-! DEFINITION. The Line Interface as a sender (sections 10.1 to 10.4), its reporting schedule (section 3.6), and the two remaining clocks:
PERIODIC_REPORT, GAP_END, SEND_START, LOST_ARBITRATION, LINE_NOT_FOLLOWING, FRAME_COMPLETE, TX_BLOCKED_TIMER, DOMINANT_RUN,
LINE_IDLE, STORM_CLEAR_TIME, WEIR_CLOCK_DAY. -/

namespace Sys2Proof.Machine

/-- The bits of a frame of this station in the order they are sent, true for recessive (R167, R168). -/
def frameBits (s : State) (f : OutFrame) : List Bool := wireBits (outFrameBytes s.loader.strap f)

/-- The bit of the frame on the line that this station drives at a bit time counted from 0; none while it is not sending. -/
def drivenBit (bit : Nat) (s : State) : Option Bool := s.line.sending.bind (fun f => (frameBits s f)[bit]?)

/-! ### The reporting schedule -/

/-- The report timer reaches REPORT_PERIOD (R42): the time runs on to that moment, and the report is due. It does so once between two
completions. -/
def reachPeriod (s : State) : State :=
  match s.line.reportTimer with
  | some age =>
    if s.line.reportFired then s
    else
      let t := runOn age (reportPeriod s) s
      t.withLine { t.line with reportFired := true, periodicDue := true }
  | none => s

/-- PERIODIC_REPORT (R42): a report that falls due while this station's own STATE is on the line waits (R172). -/
def execPeriodicReport (s : State) : Host.Outcome State Fault Refusal := event (whileLineWorks reachPeriod) s

/-- GAP_END (R44): the time runs on to the end of the gap; a mark that waited is served then. -/
def execGapEnd (s : State) : Host.Outcome State Fault Refusal :=
  event (whileLineWorks (fun t => runOn t.line.gapTimer Config.gapMs t)) s

/-! ### Sending -/

/-- The frame a station offers: the STATE where both slots hold one (R170). -/
def offeredFrame (s : State) : Option OutFrame :=
  match s.line.stateSlot with
  | some f => some (.state f)
  | none => s.line.tideSlot.map .tide

/-- A station whose line is idle begins to send the frame it offers; on a line that another node's start bit has made dominant it does not
(R170). Its own start bit ends the idle and is dominant (R167, R173). -/
def startSending (s : State) : State :=
  if s.line.idle && s.line.sending.isNone then
    match offeredFrame s with
    | some f => s.withLine { s.line with sending := some f, tideReplaced := false, idle := false, dominantRun := some 0 }
    | none => s
  else s

/-- SEND_START (R170). -/
def execSendStart (s : State) : Host.Outcome State Fault Refusal := event (whileLineWorks startSending) s

/-- The station stops driving: its frame stays in its slot unsent (R171), unless a tide event has replaced it there (R172). The line is
at the level that it read in place of its own: a dominant run no longer than this character, or none (R173; log 15). It is a receiver from
that bit on: after a loss by R171; where the line does not follow it, by the model's choice, so that its own cut-off frame can count here
(R174; log 42). -/
def stopSending (dominant : Bool) (s : State) : State :=
  s.withLine
    { s.line with sending := none, tideReplaced := false, dominantRun := if dominant then some 0 else none }

/-- LOST_ARBITRATION (R171): dominant is read at a bit driven recessive. -/
def execLostArbitration (bit : Nat) (s : State) : Host.Outcome State Fault Refusal :=
  event (whileLineWorks (fun t => if drivenBit bit t = some true then stopSending true t else t)) s

/-- LINE_NOT_FOLLOWING (R171): recessive is read at a bit driven dominant. That the station then receives is the model's choice (log 42). -/
def execLineNotFollowing (bit : Nat) (s : State) : Host.Outcome State Fault Refusal :=
  event (whileLineWorks (fun t => if drivenBit bit t = some false then stopSending false t else t)) s

/-- The line of a station whose STATE completes (R42, R44, R46, R173): the slot empty, the report and gap timers from 0, the TX-blocked
timer stopped, the restart cause carried. -/
def stateCompletes (l : Line) : Line :=
  { l with
    stateSlot := none, reportTimer := some 0, reportFired := false, periodicDue := false, gapTimer := 0, txTimer := none,
    txExpired := false, causeToCarry := none }

/-- The line of a station whose TIDE completes: a frame that replaced it stays in the slot (R172). -/
def tideCompletes (l : Line) : Line := { l with tideSlot := if l.tideReplaced then l.tideSlot else none }

/-- The frame on the line completes (R171): TX_BLOCKED ends (R173), and the next frame starts after the next idle (R170, R174). -/
def completeFrame (s : State) : State :=
  match s.line.sending with
  | none => s
  | some f =>
    let l := match f with
      | .state _ => stateCompletes s.line
      | .tide _ => tideCompletes s.line
    clearKinds [.txBlocked] (s.withLine { l with sending := none, tideReplaced := false, awaitIdle := true, dominantRun := none })

/-- FRAME_COMPLETE (R171). -/
def execFrameComplete (s : State) : Host.Outcome State Fault Refusal := event (whileLineWorks completeFrame) s

/-! ### A station that cannot send (R173) -/

/-- The TX-blocked timer reaches 2000 ms: the time runs on to that moment, and TX_BLOCKED becomes active. -/
def expireTx (s : State) : State :=
  match s.line.txTimer with
  | some age =>
    if s.line.txExpired then s
    else
      let t := runOn age Config.txBlockedMs s
      raise [.txBlocked] (t.withLine { t.line with txExpired := true })
  | none => s

/-- TX_BLOCKED_TIMER (R173). -/
def execTxBlockedTimer (s : State) : Host.Outcome State Fault Refusal := event (whileLineWorks expireTx) s

/-- The run of a line is longer than 2000 ms (R173). -/
def runExceeds (l : Line) : Bool :=
  match l.dominantRun with
  | some run => Config.txBlockedMs < run
  | none => false

/-- The dominant run exceeds 2000 ms: the time runs on to that moment, and TX_BLOCKED becomes active (R173). A run that has stood through
2000 ms and counts on exceeds them, also where the line becomes recessive at 2001 ms. A receiver takes nothing before the line is next idle
(R174). With no run, or with a run that ends at 2000 ms or before, nothing happens (log 17). -/
def exceedRun (s : State) : State :=
  match s.line.dominantRun with
  | some age =>
    if runExceeds (runLevel 1 (runOn age Config.txBlockedMs s).line) then
      let t := runOn age (Config.txBlockedMs + 1) s
      raise [.txBlocked] (t.withLine { t.line with idle := false, awaitIdle := true })
    else s
  | none => s

/-- DOMINANT_RUN (R173). -/
def execDominantRun (s : State) : Host.Outcome State Fault Refusal := event (whileLineWorks exceedRun) s

/-- The line has been recessive for 12 bit times (R170); a receiver takes the next start bit again (R174). -/
def becomeIdle (s : State) : State :=
  if s.line.sending.isNone then s.withLine { s.line with idle := true, awaitIdle := false, dominantRun := none } else s

/-- LINE_IDLE (R170). -/
def execLineIdle (s : State) : Host.Outcome State Fault Refusal := event (whileLineWorks becomeIdle) s

/-! ### The storm clear timer and the day -/

/-- The storm clear timer reaches STORM_CLEAR_TIME in STORM (R156): the time runs on to that moment, and the mode becomes the key-implied
mode of the latest sample. -/
def endStorm (img : Image) (s : State) : State :=
  match s.modeCtl.mode, s.modeCtl.stormClear with
  | .storm, some age =>
    let t := runOn age (img.params.stormClearTime * 1000) s
    enterMode (keyMode t) t
  | _, _ => s

/-- STORM_CLEAR_TIME (R156). -/
def execStormClearTime (s : State) : Host.Outcome State Fault Refusal := event (whileAccepted endStorm) s

/-- WEIR_CLOCK_DAY (R61): the time runs on until the millisecond of day returns to 0 and the day counts up. -/
def execWeirClockDay (s : State) : Host.Outcome State Fault Refusal :=
  event (fun t => elapse (Config.dayMs - t.order.clockMs) t) s

end Sys2Proof.Machine
end

