-- ==== Sys2Proof/Machine/Dispatch.lean ====
section
/-! DEFINITION. One arm per event, each the direct call of its meaning. -/

namespace Sys2Proof.Machine

def exec (i : Instr) (s : State) : Host.Outcome State Fault Refusal :=
  match i with
  | .powerOnReset supply => Sys2Proof.Machine.execPowerOnReset supply s
  | .resetEnd straps => Sys2Proof.Machine.execResetEnd straps s
  | .imageReadFailed => Sys2Proof.Machine.execImageReadFailed s
  | .imageReadRetry => Sys2Proof.Machine.execImageReadRetry s
  | .imageReadComplete bytes inputs upCode downCode => Sys2Proof.Machine.execImageReadComplete bytes inputs upCode downCode s
  | .controlTick inputs => Sys2Proof.Machine.execControlTick inputs s
  | .encoderReply request raw verifies => Sys2Proof.Machine.execEncoderReply request raw verifies s
  | .replyWindow side => Sys2Proof.Machine.execReplyWindow side s
  | .encFault side => Sys2Proof.Machine.execEncFault side s
  | .encRecovery side => Sys2Proof.Machine.execEncRecovery side s
  | .levelSample upCode downCode => Sys2Proof.Machine.execLevelSample upCode downCode s
  | .levelFault channel => Sys2Proof.Machine.execLevelFault channel s
  | .levelRecovery channel => Sys2Proof.Machine.execLevelRecovery channel s
  | .tideQualified => Sys2Proof.Machine.execTideQualified s
  | .peerAgeing => Sys2Proof.Machine.execPeerAgeing s
  | .orderFrame source payload => Sys2Proof.Machine.execOrderFrame source payload s
  | .resume source target argument tag => Sys2Proof.Machine.execResume source target argument tag s
  | .finishAtHold source target argument tag => Sys2Proof.Machine.execFinishAtHold source target argument tag s
  | .tideEvent source target argument tag => Sys2Proof.Machine.execTideEvent source target argument tag s
  | .abandon source target argument tag => Sys2Proof.Machine.execAbandon source target argument tag s
  | .clearFault source target argument tag => Sys2Proof.Machine.execClearFault source target argument tag s
  | .clearCounts source target argument tag => Sys2Proof.Machine.execClearCounts source target argument tag s
  | .restart source target argument tag straps => Sys2Proof.Machine.execRestart source target argument tag straps s
  | .unknownCommand source target code argument tag => Sys2Proof.Machine.execUnknownCommand source target code argument tag s
  | .stateFrame source payload => Sys2Proof.Machine.execStateFrame source payload s
  | .tideFrame source payload => Sys2Proof.Machine.execTideFrame source payload s
  | .frameDropped what => Sys2Proof.Machine.execFrameDropped what s
  | .duplicateClear => Sys2Proof.Machine.execDuplicateClear s
  | .alone => Sys2Proof.Machine.execAlone s
  | .periodicReport => Sys2Proof.Machine.execPeriodicReport s
  | .gapEnd => Sys2Proof.Machine.execGapEnd s
  | .sendStart => Sys2Proof.Machine.execSendStart s
  | .lostArbitration bit => Sys2Proof.Machine.execLostArbitration bit s
  | .lineNotFollowing bit => Sys2Proof.Machine.execLineNotFollowing bit s
  | .frameComplete => Sys2Proof.Machine.execFrameComplete s
  | .txBlockedTimer => Sys2Proof.Machine.execTxBlockedTimer s
  | .dominantRun => Sys2Proof.Machine.execDominantRun s
  | .announceWait => Sys2Proof.Machine.execAnnounceWait s
  | .warnLead pumpReady => Sys2Proof.Machine.execWarnLead pumpReady s
  | .pumpWait => Sys2Proof.Machine.execPumpWait s
  | .valveMismatch side => Sys2Proof.Machine.execValveMismatch side s
  | .stall => Sys2Proof.Machine.execStall s
  | .stormClearTime => Sys2Proof.Machine.execStormClearTime s
  | .dwellExpired => Sys2Proof.Machine.execDwellExpired s
  | .weirClockDay => Sys2Proof.Machine.execWeirClockDay s
  | .lineIdle => Sys2Proof.Machine.execLineIdle s

end Sys2Proof.Machine
end

