-- ==== Sys2Proof/Machine/Step.lean ====
section
/-! DEFINITION. The step: the event at the front of the queue, or one millisecond on an empty queue (log 3). -/

namespace Sys2Proof.Machine

/-- One step. An event that waits takes effect with the queue's rest; on an empty queue one millisecond passes, in which the block idles
(log 3). -/
def step (s : State) : Host.Outcome State Fault Refusal :=
  match s.pending with
  | [] => .next (elapse 1 s)
  | i :: rest => exec i (s.withPending rest)

/-- The event that a word spells is put at the front of the queue. No row of spec/opcode_table.json has bits (log 24). -/
def State.withFetchWord (s : State) (nbits w : Nat) : State :=
  match decodeTableWord nbits w with
  | some i => s.withPending (i :: s.pending)
  | none => s

end Sys2Proof.Machine
end

