-- ==== Sys2Proof/Safety.lean ====
section
/-! DEFINITION. What a sound state of the station is: the relations the spec states between the items of the blocks. Each predicate is kept by
every event; the statements about them stand in Certificates/Slice0/Obligations.lean. -/

namespace Sys2Proof.Safety

open Sys2Proof.Machine

/-- The three outputs follow the move state (R89). -/
abbrev OutputsFollow (g : Grant) : Prop :=
  g.horn = underWay g.moveState ∧ g.pumpRun = underWay g.moveState ∧ g.driveEnable = (g.moveState == .moving)

/-- The claim agrees with the move state: no claim and no timer in STILL; a granted claim in WANT; the ticket 0 with a bypass claim and
1..65535 with a granted one; the warn timer in WARN alone; no pump timer before WARN (R91, R92, R94, R97, R98, R101). That the announce timer
too is stopped in STILL, after a withdrawal from WARN (R96) and the end of motion (R100) as well, is deduced (log 22). -/
abbrev ClaimSound (g : Grant) : Prop :=
  (g.moveState = .still ↔ g.moveKind = .noClaim) ∧
  (g.moveState = .want → g.moveKind = .granted) ∧
  (g.moveKind ≠ .granted → g.ticket = 0) ∧
  (g.moveKind = .granted → 1 ≤ g.ticket ∧ g.ticket ≤ 65535 ∧ g.announceTimer.isSome) ∧
  (g.moveState = .still → g.announceTimer = none) ∧
  (g.warnTimer.isSome ↔ g.moveState = .warn) ∧
  (underWay g.moveState = false → g.pumpTimer = none)

/-- Outside MOVING the valves rest: commands 0, codes null, no mismatch counted, no stall window; in MOVING the stall window runs (R106,
R112, R113, R115). -/
abbrev ValvesRest (s : State) : Prop :=
  (s.grant.moveState ≠ .moving →
    s.drive.cmdL = 0 ∧ s.drive.cmdR = 0 ∧ s.drive.codeL = nullCode .left s ∧ s.drive.codeR = nullCode .right s ∧
      s.drive.runL = 0 ∧ s.drive.runR = 0) ∧
  (s.drive.stall.isSome ↔ s.grant.moveState = .moving)

/-- The commands and codes stay in their ranges (R111, R112). -/
abbrev ValvesInRange (x : Drive) : Prop :=
  -1000 ≤ x.cmdL ∧ x.cmdL ≤ 1000 ∧ -1000 ≤ x.cmdR ∧ x.cmdR ≤ 1000 ∧ x.codeL ≤ 16383 ∧ x.codeR ≤ 16383

/-- The claim agrees with the mode: in START and FAULT there is none, the gate stands STILL and every output is off; a granted claim stands in
AUTO and LOCAL alone, and a bypass claim in STORM and MAINT alone (R90, R91, R101, R102). -/
abbrev ClaimInMode (m : Mode) (g : Grant) : Prop :=
  (m = .start ∨ m = .fault →
    g.moveState = .still ∧ g.moveKind = .noClaim ∧ g.horn = false ∧ g.pumpRun = false ∧ g.driveEnable = false) ∧
  (g.moveKind = .granted → m = .auto ∨ m = .loc) ∧
  (g.moveKind = .bypass → m = .storm ∨ m = .maint)

/-- Gate outputs, claim and mode agree: what leaves the part at the horn, the pump, the drive enable and the converters (R89, R102, R112). -/
abbrev GateSound (s : State) : Prop :=
  OutputsFollow s.grant ∧ ClaimSound s.grant ∧ ValvesRest s ∧ ValvesInRange s.drive ∧ ClaimInMode s.modeCtl.mode s.grant

/-- Before the end of the image read the mode is START with nothing active or latched (R149, R165, R180); after a rejected image it is
FAULT with CONFIG active (R166). A read attempt and the wait for the next exclude each other (R181). -/
abbrev StartSound (s : State) : Prop :=
  (s.modeCtl.mode = .start ↔ s.loader.image = .unread) ∧
  (s.loader.image = .unread → s.modeCtl.active = 0 ∧ s.modeCtl.latched = 0) ∧
  (s.loader.image = .rejected → condition .config s = true) ∧
  (s.loader.inReset = true → s.loader.image = .unread ∧ s.loader.reading = false ∧ s.loader.retryTimer = none) ∧
  (s.loader.reading = true → s.loader.image = .unread) ∧
  (s.loader.reading = true → s.loader.retryTimer = none) ∧
  (s.loader.retryTimer.isSome → s.loader.image = .unread)

/-- The fault sets agree with the mode, the relay and the first-fault record; PLAN_BAD never stays active (R130, R151, R160 to R162). -/
abbrev FaultsSound (m : ModeCtl) : Prop :=
  m.relay = relayIn m.mode ∧
  (m.mode ≠ .start → (m.mode = .fault ↔ hasStopClass m.latched = true)) ∧
  m.active &&& m.latched = m.active ∧
  hasFault .planBad m.active = false ∧
  (m.firstFault = none ↔ m.latched = 0)

/-- The storm demand is served: no demand stands in AUTO or LOCAL; the clear timer runs in STORM with the demand false, and nowhere else; a
save is held in STORM, and nowhere but in STORM and FAULT (R149, R155, R156, R158). -/
abbrev StormSound (s : State) : Prop :=
  (s.modeCtl.mode = .auto ∨ s.modeCtl.mode = .loc → stormDemand s = false) ∧
  (s.modeCtl.stormClear.isSome ↔ s.modeCtl.mode = .storm ∧ stormDemand s = false) ∧
  (s.modeCtl.mode = .storm → s.modeCtl.save.isSome) ∧
  (s.modeCtl.save.isSome → s.modeCtl.mode = .storm ∨ s.modeCtl.mode = .fault)

/-- Modes, faults and storm agree. -/
abbrev ModeSound (s : State) : Prop := StartSound s ∧ FaultsSound s.modeCtl ∧ StormSound s

/-- The stacks, the queue and the spin count stay in their depths (R125, R126, R128, R131). -/
abbrev InterpInRange (i : Interp) (queue : List Nat) : Prop :=
  i.loops.length ≤ Config.stackDepth ∧ i.calls.length ≤ Config.stackDepth ∧ i.spin ≤ Config.spinLimit ∧
    queue.length ≤ Config.queueDepth

/-- Nothing of a plan stands where there is none RUNNING or HELD (R129, R141, R147). -/
abbrev PlanEmpty (interp : Interp) (queue : List Nat) (current : Option Nat) : Prop :=
  interp = .cleared ∧ queue = [] ∧ current = none

/-- A plan is RUNNING or HELD. -/
abbrev PlanLive (p : PlanState) : Prop := p = .running ∨ p = .held

/-- The saved plan agrees with the live one, which the entry into STORM left HELD where it was RUNNING (R155, R158). -/
abbrev SaveAgrees (p : Plan) (c : StormSave) : Prop :=
  (PlanLive c.state → p.state = .held) ∧ (¬ PlanLive c.state → p.state = c.state ∧ PlanEmpty c.interp c.queue c.current) ∧
    (c.number = none ↔ c.state = .idle) ∧ InterpInRange c.interp c.queue

/-- The plan is sound: RUNNING in AUTO alone; a resume point exactly while HELD; nothing of a plan left over; a plan number exactly while not
IDLE; a deferred action only outside AUTO (R58, R139 to R142). -/
abbrev PlanSound (s : State) : Prop :=
  (s.plan.state = .running → s.modeCtl.mode = .auto) ∧
  (s.plan.resume.isSome ↔ s.plan.state = .held) ∧
  (¬ PlanLive s.plan.state → PlanEmpty s.plan.interp s.plan.queue s.plan.current ∧ s.plan.finishAtHold = false) ∧
  (s.plan.number = none ↔ s.plan.state = .idle) ∧
  InterpInRange s.plan.interp s.plan.queue ∧
  (∀ c ∈ s.modeCtl.save, SaveAgrees s.plan c) ∧
  (s.modeCtl.mode = .auto → s.order.deferred = false)

/-- A row's age is in range, and 0 while the row is EMPTY (R37, R48); a filled row's freshness is that of its age (R37), its period in the
range that R35 clamps it to. -/
abbrev RowSound (r : TableRow) : Prop :=
  r.age ≤ 65535 ∧ (r.content = none → r.age = 0) ∧
    ∀ c ∈ r.content, c.freshness = freshnessOf r.age c.period ∧ 200 ≤ c.period ∧ c.period ≤ 2000

/-- The Peer Table is sound: sixteen rows, each sound, the station's own EMPTY, and all EMPTY at age 0 before an image is accepted (R33, R37,
R48, R49). -/
abbrev PeersSound (s : State) : Prop :=
  s.peers.rows.length = 16 ∧ contentAt s.loader.strap s = none ∧ (∀ r ∈ s.peers.rows, RowSound r) ∧
    (isAccepted s = false → ∀ r ∈ s.peers.rows, r = { age := 0, content := none })

/-- The Line Interface is sound: a STATE on the line is the one in the slot; a TIDE on the line is the one in the slot unless it was
replaced; a sender's line is not idle; an idle line has no dominant run; the TX-blocked timer runs exactly while a STATE waits; the error
counter is in range; before the end of the image read nothing waits, no run stands and no change of level is held (R170 to R175, R179). -/
abbrev LineSound (s : State) : Prop :=
  (∀ f, s.line.sending = some (.state f) → s.line.stateSlot = some f) ∧
  (∀ r, s.line.sending = some (.tide r) → s.line.tideReplaced = false → s.line.tideSlot = some r) ∧
  (s.line.sending.isSome → s.line.idle = false) ∧
  (s.line.idle = true → s.line.dominantRun = none) ∧
  (s.line.txTimer.isSome ↔ s.line.stateSlot.isSome) ∧
  s.line.errors ≤ 255 ∧
  (lineWorks s = false → s.line.stateSlot = none ∧ s.line.tideSlot = none ∧ s.line.sending = none ∧ s.line.mark = false ∧
    s.line.dominantRun = none ∧ s.line.changes = [])

/-- The runs of an encoder side stay in their ranges (R4). -/
abbrev EncoderSound (e : EncoderSide) : Prop := e.failRun ≤ 255 ∧ e.goodRun ≤ 8

/-- The end of the travel: OPEN_MAX, and 0 before an image is accepted (R7, R13). -/
def travelEnd (s : State) : Nat :=
  match acceptedImage s with
  | some img => img.params.openMax
  | none => 0

/-- The position is sound: it is established only with a count of both sides; the opening is in travel (R7, R8, R13). -/
abbrev PositionSound (s : State) : Prop :=
  (s.position.established = true → s.position.left.lastCount.isSome ∧ s.position.right.lastCount.isSome) ∧
  EncoderSound s.position.left ∧ EncoderSound s.position.right ∧
  s.position.opening ≤ travelEnd s

/-! ### What an event leaves alone -/

/-- The line after a report that may have been built, and with a mark that may have been set: nothing of it changed but the STATE slot, the
mark, the due report and the TX-blocked timer (R42 to R44, R172, R173). -/
abbrev Reported (l l' : Line) : Prop :=
  l' =
    { l with
      stateSlot := l'.stateSlot, mark := l'.mark, periodicDue := l'.periodicDue, txTimer := l'.txTimer,
      txExpired := l'.txExpired }

/-- Nothing happened but a report. -/
abbrev Quiet (s t : State) : Prop := t = { s with line := t.line } ∧ Reported s.line t.line

/-- The line after a valid frame has arrived: not idle, recessive at the stop bit, the receiver waiting for the next idle, the line-silent
timer from 0 (R40, R174, R176). -/
abbrev heardLine (l : Line) : Line := { l with idle := false, awaitIdle := true, dominantRun := none, lineSilent := 0 }

/-- The Mode Controller after a valid frame has arrived: ALONE inactive (R40). -/
abbrev heardModes (m : ModeCtl) : ModeCtl := { m with active := dropFault .alone m.active }

/-- Nothing happened but the arrival of a valid frame, and a report. -/
abbrev OnlyHeard (s t : State) : Prop :=
  t = { s with line := t.line, modeCtl := heardModes s.modeCtl } ∧ Reported (heardLine s.line) t.line

/-- Nothing happened but the arrival of a valid frame that was counted as an error, and a report (R175). -/
abbrev HeardAndCounted (s t : State) : Prop :=
  t = { s with line := t.line, modeCtl := heardModes s.modeCtl } ∧
    Reported { heardLine s.line with errors := min 255 (s.line.errors + 1) } t.line

/-- The station stands in FAULT: relay open, no claim, every output off (R102, R151). -/
abbrev StandsInFault (t : State) : Prop :=
  t.modeCtl.mode = .fault ∧ t.modeCtl.relay = false ∧ t.grant.moveState = .still ∧ t.grant.moveKind = .noClaim ∧
    t.grant.ticket = 0 ∧ t.grant.announceTimer = none ∧ t.grant.warnTimer = none ∧ t.grant.pumpTimer = none ∧
    t.grant.horn = false ∧ t.grant.pumpRun = false ∧ t.grant.driveEnable = false

/-- What an entry into FAULT from the state `b` may touch: the modes and faults, the claim, the drive, the plan and the line. -/
abbrev FaultFrame (b t : State) : Prop :=
  t = { b with modeCtl := t.modeCtl, grant := t.grant, drive := t.drive, plan := t.plan, line := t.line }

/-- The Mode Controller of the state `b` after the condition of a degrade-class kind that was inactive has become active: the kind active and
latched, first if nothing was latched, the mode as it was (R160 to R162). -/
abbrev raisedModes (k : FaultKind) (b : State) : ModeCtl :=
  { b.modeCtl with
    active := addFault k b.modeCtl.active
    latched := addFault k b.modeCtl.latched
    firstFault :=
      if b.modeCtl.latched = 0 then some { kind := k, day := b.order.clockDay, ms := b.order.clockMs }
      else b.modeCtl.firstFault }

/-- A STATE that is built from the state `t` carries what R47 and R177 say, at the codes of R185: with order none, an empty first-fault record or
an empty last-command record, zeros and the plan 255. -/
abbrev CarriesState (f : StateFrame) (t : State) : Prop :=
  (f.mode = t.modeCtl.mode ∧ (f.isolated = true ↔ t.modeCtl.mode = .maint) ∧
    (f.stormPending = true ↔
      (t.modeCtl.mode = .maint ∨ t.modeCtl.mode = .fault) ∧
        (t.modeCtl.condOrder = true ∨ t.modeCtl.condInput = true ∨ t.modeCtl.condLevel = true))) ∧
  (f.moveState = t.grant.moveState ∧ f.ticket = t.grant.ticket ∧ (f.bypass = true ↔ t.grant.moveKind = .bypass)) ∧
  (f.planState = t.plan.state ∧ f.planNumber = (if t.plan.state = .idle then 255 else t.plan.number.getD 255) ∧
    f.stepIndex = t.plan.current.getD 255) ∧
  (f.opening = t.position.opening ∧ f.skew = t.position.skew) ∧
  (f.effective = t.target.effective ∧ f.unclamped = t.target.unclamped ∧ f.available = t.target.available ∧
    f.limited = t.target.limited ∧ f.shareUnmet = t.target.shareUnmet) ∧
  (f.upLevel = t.level.up.used ∧ f.dnLevel = t.level.dn.used ∧ (f.upOwn = true ↔ t.level.up.source = .own) ∧
    (f.dnOwn = true ↔ t.level.dn.source = .own)) ∧
  (f.window = t.tide.window ∧ f.tideBlind = t.tide.blind ∧ f.alone = condition .alone t) ∧
  (∀ o, t.order.adopted = some o →
    f.orderNumber = o.number ∧ f.orderOrigin = o.origin ∧
      f.orderKind = (match o.kind with | .discharge => 1 | .opening => 2 | .close => 3) ∧ f.orderValue = o.value ∧
      f.orderPlan = o.plan.getD 255 ∧ f.orderMask = o.mask ∧ f.halt = o.halt ∧ f.storm = o.storm ∧ f.tideLock = o.tideLock ∧
      f.restartPlan = o.restartPlan) ∧
  (t.order.adopted = none →
    f.orderNumber = 0 ∧ f.orderOrigin = 0 ∧ f.orderKind = 0 ∧ f.orderValue = 0 ∧ f.orderPlan = 255 ∧ f.orderMask = 0 ∧
      f.halt = false ∧ f.storm = false ∧ f.tideLock = false ∧ f.restartPlan = false) ∧
  (f.reportPeriod = (match acceptedImage t with | some img => img.params.reportPeriod | none => 500) ∧
    f.latched = t.modeCtl.latched ∧ f.errors = t.line.errors) ∧
  (∀ r, t.modeCtl.firstFault = some r → f.firstKind = faultBit r.kind + 1 ∧ f.firstDay = r.day ∧ f.firstMs = r.ms) ∧
  (t.modeCtl.firstFault = none → f.firstKind = 0 ∧ f.firstDay = 0 ∧ f.firstMs = 0) ∧
  (∀ c, t.order.lastCommand = some c →
    f.commandSource = c.source ∧ f.commandTag = c.tag ∧ f.commandCode = c.code ∧
      f.commandResult =
        (match c.result with | .done => 1 | .refusedAuthority => 2 | .refusedState => 3 | .unknown => 4)) ∧
  (t.order.lastCommand = none → f.commandSource = 0 ∧ f.commandTag = 0 ∧ f.commandCode = 0 ∧ f.commandResult = 0) ∧
  f.cause = (match t.line.causeToCarry with | none => 0 | some .power => 1 | some .pin => 2 | some .restart => 3)

/-- Something that R43 watches besides adoptions and answers differs between two states. -/
abbrev ReportedChange (s t : State) : Prop :=
  s.grant.moveState ≠ t.grant.moveState ∨ s.modeCtl.mode ≠ t.modeCtl.mode ∨ s.plan.state ≠ t.plan.state ∨
    s.plan.current ≠ t.plan.current ∨ s.modeCtl.latched ≠ t.modeCtl.latched ∨ s.tide.window ≠ t.tide.window

/-- The answer of a command stands in the last-command record, and waits under the mark or has been built into the STATE slot (R43, R63). -/
abbrev Answered (source tag : Byte) (code : Nat) (result : CommandResult) (t : State) : Prop :=
  t.order.lastCommand = some { source := source.toNat, tag := tag.toNat, code := code, result := result } ∧
    (t.line.mark = true ∨
      ∃ f, t.line.stateSlot = some f ∧ f.commandSource = source.toNat ∧ f.commandTag = tag.toNat ∧ f.commandCode = code ∧
        f.commandResult = resultCode result)

/-- The Order Unit with the answer of a command (R63). -/
abbrev answeredOrder (o : OrderUnit) (source tag : Byte) (code : Nat) (result : CommandResult) : OrderUnit :=
  { o with lastCommand := some { source := source.toNat, tag := tag.toNat, code := code, result := result } }

/-! ### What the Peer Table answers -/

/-- The station numbers whose filled rows show what a lookup selects, in ascending order (R38). -/
def rowsWhere (s : State) (p : Nat → PeerRow → Bool) : List Nat :=
  (List.range 16).filter (fun n => (contentAt n s).any (p n))

/-- The key of a row is lower than the station's own (R93). -/
abbrev LowerKey (s : State) (n : Nat) (r : PeerRow) : Prop :=
  r.ticket < s.grant.ticket ∨ (r.ticket = s.grant.ticket ∧ n < s.loader.strap)

/-- A row is a mover: FRESH or STALE, isolated clear, WARN or MOVING (R38). -/
abbrev IsMover (r : PeerRow) : Prop :=
  r.freshness ≠ .lost ∧ r.isolated = false ∧ (r.moveState = .warn ∨ r.moveState = .moving)

/-- A row is a wanter: FRESH, isolated clear, WANT (R38). -/
abbrev IsWanter (r : PeerRow) : Prop := r.freshness = .fresh ∧ r.isolated = false ∧ r.moveState = .want

/-- The lookups that the Grant Unit asks for answer as R38 has it: the claimants of R95, the movers a claim yields to (R96), and the
highest ticket (R92). -/
abbrev GrantLookups (s : State) : Prop :=
  claimants s = (rowsWhere s (fun n r => decide (IsMover r ∨ (IsWanter r ∧ LowerKey s n r)))).length ∧
  yieldCount s = (rowsWhere s (fun n r => decide (IsMover r ∧ LowerKey s n r))).length ∧
  (∀ (n : Nat) (r : PeerRow), n < 16 → contentAt n s = some r → r.freshness ≠ .lost → r.moveState ≠ .still →
    r.ticket ≤ highestTicket s) ∧
  (highestTicket s = 0 ∨
    ∃ (n : Nat) (r : PeerRow), n < 16 ∧ contentAt n s = some r ∧ r.freshness ≠ .lost ∧ r.moveState ≠ .still ∧
      r.ticket = highestTicket s)

/-- The lookups that the Target Unit asks for answer as R38 has it: the neighbours that bound, and the sharers of an order. -/
abbrev TargetLookups (img : Image) (s : State) : Prop :=
  (∀ mm : Nat, mm ∈ neighbourOpenings img s ↔
    ∃ (n : Nat) (r : PeerRow),
      ((layoutAt img.layout s.loader.strap).left = some n ∨ (layoutAt img.layout s.loader.strap).right = some n) ∧
        contentAt n s = some r ∧ r.freshness ≠ .lost ∧ r.isolated = false ∧ r.opening = mm) ∧
  (∀ o : Order,
    sharers o s =
      rowsWhere s (fun _ r =>
        decide (r.freshness = .fresh ∧ r.available = true ∧ r.keyNumber = o.number ∧ r.keyOrigin = o.origin)))

/-- HALT is in force while the adopted order bears it and applies to the station (R58, R59). -/
abbrev HaltIs (s : State) : Prop :=
  haltInForce s = true ↔ ∃ o, s.order.adopted = some o ∧ o.halt = true ∧ o.mask.getLsbD s.loader.strap = true

/-- The admission is that of the first row of R90 that applies. -/
abbrev AdmissionIs (img : Image) (s : State) : Prop :=
  admission img s =
    (if s.position.established = false then .refused
     else
      match s.modeCtl.mode with
      | .start | .fault => .refused
      | .maint => .bypass 0
      | .storm => .bypass (img.params.warnLead * 1000)
      | .auto => if haltInForce s = true ∨ condition .alone s = true then .refused else .throughGrant
      | .loc => if condition .alone s = true then .refused else .throughGrant)

/-! ### The level of the line -/

/-- No change of the line's level by another node falls due within `dt` ms (log 40). -/
abbrev NoChangeWithin (dt : Nat) (coming : List LineChange) : Prop := ∀ c ∈ coming.head?, dt < c.wait

/-! ### A control tick, block by block -/

/-- The state in which a control tick begins: the time run on to its moment, the coming changes of the line's level held, reads still open
ended (R1, R2; logs 1, 7 and 40). -/
def tickBegins (img : Image) (inputs : TickInputs) (s : State) : State :=
  endOpenReads img (nextTick (hearLine inputs.line (runOn s.clocks.tick Config.tickMs s)))

/-- The blocks that evaluate before a block at a tick (log 5). -/
def blocksBefore (inputs : TickInputs) (b : Block) : List Block := (tickOrder inputs.order).takeWhile (fun c => c != b)

/-- The state as a block finds it at its turn in a control tick: the blocks before it have evaluated. -/
def atTurn (img : Image) (inputs : TickInputs) (b : Block) (s : State) : State :=
  (blocksBefore inputs b).foldl (fun t c => evalBlock img inputs c t) (tickBegins img inputs s)

/-- The blocks that evaluate after a block at a tick (log 5). -/
def blocksAfter (inputs : TickInputs) (b : Block) : List Block := ((tickOrder inputs.order).dropWhile (fun c => c != b)).tail

/-- The state after a block's turn in a control tick, from which the blocks after it go on. -/
def afterTurn (img : Image) (inputs : TickInputs) (b : Block) (s : State) : State := evalBlock img inputs b (atTurn img inputs b s)

/-- The rest of a control tick: the blocks after a block evaluate from the state its turn has left. -/
def restOfTick (img : Image) (inputs : TickInputs) (b : Block) (s : State) : State :=
  (blocksAfter inputs b).foldl (fun t c => evalBlock img inputs c t) s

/-- The claim after an evaluation in WARN that is neither withdrawn nor yielded (R97, R98): it waits for its lead, moves with the pump ready, or
has the pump timer running. -/
abbrev ClaimProceeds (pumpReady : Bool) (before after : Grant) : Prop :=
  ((∀ age, before.warnTimer = some age → age < before.warnLead) → after = before) ∧
  (∀ age, before.warnTimer = some age → before.warnLead ≤ age →
    after =
      (if pumpReady then
        { before with
          moveState := .moving, warnTimer := none, pumpTimer := none, horn := true, pumpRun := true, driveEnable := true }
      else { before with pumpTimer := some (before.pumpTimer.getD 0) }))

/-- A claim that has become STILL (R89, R95, R100). That the announce timer stops with the others, at a withdrawal from WARN (R96), at the end
of motion (R100) and at the stop of a bypass claim (R101) too, is deduced (log 22). -/
abbrev claimStill (g : Grant) : Grant :=
  { g with
    moveState := .still, moveKind := .noClaim, ticket := 0, announceTimer := none, warnTimer := none, pumpTimer := none
    horn := false, pumpRun := false, driveEnable := false }

/-- A claim that has entered WARN (R89, R91, R95). -/
abbrev claimWarn (g : Grant) (kind : MoveKind) (ticket lead : Nat) : Grant :=
  { g with
    moveState := .warn, moveKind := kind, ticket := ticket, warnTimer := some 0, warnLead := lead, pumpTimer := none
    horn := true, pumpRun := true, driveEnable := false }

/-- A claim that has yielded (R96). -/
abbrev claimYielded (g : Grant) : Grant :=
  { g with moveState := .want, warnTimer := none, pumpTimer := none, horn := false, pumpRun := false, driveEnable := false }

/-- The Drive Unit after a halt of a moving gate: the valves at rest and the setpoint at the opening (R59, R101, R112). -/
abbrev driveHalted (b : State) : Drive :=
  { b.drive with
    setpoint := b.position.opening * 1000, cmdL := 0, cmdR := 0, codeL := nullCode .left b, codeR := nullCode .right b, runL := 0, runR := 0
    stall := none }

/-- The claim of `b` after a transition into STORM or MAINT, with the warning lead of the new mode in ms (R101): a WANT is dropped, a WARN begins
its warning afresh as a bypass claim, and a gate that moves goes on as one. LIMITED is cleared where a granted WARN turned. -/
abbrev ClaimBypassed (lead : Nat) (b t : State) : Prop :=
  t.drive = b.drive ∧
  t.target.limited = (if b.grant.moveState = .warn ∧ b.grant.moveKind = .granted then false else b.target.limited) ∧
  t.grant =
    (match b.grant.moveState with
      | .still => b.grant
      | .want => claimStill b.grant
      | .warn =>
        { b.grant with moveKind := .bypass, ticket := 0, warnTimer := some 0, warnLead := lead, pumpTimer := none }
      | .moving => { b.grant with moveKind := .bypass, ticket := 0 })

/-- A transition into AUTO or LOCAL, or HALT at an entry into AUTO, stops the claim of `b` (R59, R101): a bypass claim in WARN or MOVING, or
under HALT any claim. -/
abbrev ClaimStops (halted : Prop) (b : State) : Prop :=
  b.grant.moveState ≠ .still ∧ (halted ∨ (b.grant.moveKind = .bypass ∧ underWay b.grant.moveState = true))

/-- The claim of `b` after a transition into AUTO or LOCAL (R101), with HALT in force in AUTO or not (R59): stopped, or as it was. -/
abbrev ClaimUnbypassed (halted : Prop) (b t : State) : Prop :=
  t.target.limited = b.target.limited ∧
  (ClaimStops halted b →
    t.grant = claimStill b.grant ∧ t.drive = (if b.grant.moveState = .moving then driveHalted b else b.drive)) ∧
  (¬ ClaimStops halted b → t.grant = b.grant ∧ t.drive = b.drive)

/-- The conditions that describe a move are not active once the move has ended (R98, R114, R116). -/
abbrev moveConditionsEnded (f : FaultSet) : FaultSet :=
  dropFault .pump (dropFault .stall (dropFault .valveR (dropFault .valveL f)))

/-- A plan that is held as AUTO is left, if it is RUNNING (R142). -/
abbrev planHeld (p : Plan) : Plan :=
  if p.state = .running then
    { p with
      state := .held, phase := if p.current.isSome then .aim else p.phase
      aimJudged := if p.current.isSome then false else p.aimJudged
      resume := if p.current.isSome then some .current else some .next }
  else p

/-- One of the kinds is stop-class and enters the latched set in a mode that it ends (R161). -/
abbrev StopEnters (risen : List FaultKind) (b : State) : Prop :=
  canFault b.modeCtl.mode = true ∧ ∃ k ∈ risen, isStopClass k = true ∧ hasFault k b.modeCtl.latched = false

/-- The conditions of `risen`, in kind order, are found active in the station `b`, whose active kinds are all latched (R102, R142, R160 to
R162): they are latched together, the first of them first where nothing was latched; a stop-class kind among those that enter takes the
station to FAULT, the valves at rest and a RUNNING plan held; else the mode, the claim, the drive and the plan stay. -/
abbrev KindsRaised (risen : List FaultKind) (b t : State) : Prop :=
  (∀ k, hasFault k t.modeCtl.latched = (hasFault k b.modeCtl.latched || decide (k ∈ risen))) ∧
  t.modeCtl.firstFault =
    (match risen with
      | [] => b.modeCtl.firstFault
      | k :: _ =>
        if b.modeCtl.latched = 0 then some { kind := k, day := b.order.clockDay, ms := b.order.clockMs } else b.modeCtl.firstFault) ∧
  (StopEnters risen b →
    StandsInFault t ∧ t.grant = claimStill b.grant ∧
      t.drive =
        (if b.grant.moveState = .moving then
          { b.drive with
            cmdL := 0, cmdR := 0, codeL := nullCode .left b, codeR := nullCode .right b, runL := 0, runR := 0, stall := none }
        else b.drive) ∧
      t.plan = (if b.modeCtl.mode = .auto then planHeld b.plan else b.plan) ∧
      t.modeCtl =
        { b.modeCtl with
          mode := .fault, relay := false, stormClear := none, active := t.modeCtl.active, latched := t.modeCtl.latched
          firstFault := t.modeCtl.firstFault }) ∧
  (¬ StopEnters risen b →
    t.grant = b.grant ∧ t.drive = b.drive ∧ t.plan = b.plan ∧
      t.modeCtl =
        { b.modeCtl with
          active := t.modeCtl.active, latched := t.modeCtl.latched, firstFault := t.modeCtl.firstFault })

/-- A claim in WANT or WARN has been dropped, and nothing else has happened but a report. -/
abbrev ClaimDropped (b t : State) : Prop :=
  t = { b with
        grant := claimStill b.grant
        modeCtl := { b.modeCtl with active := moveConditionsEnded b.modeCtl.active }
        line := t.line } ∧
  Reported b.line t.line

/-- The Grant Unit has evaluated up to the moment `m` (log 26). -/
abbrev withGrantAhead (m : Nat) (s : State) : State := { s with clocks := { s.clocks with grantAhead := m } }

/-- The Plan Sequencer has evaluated up to the moment `m` (log 26). -/
abbrev withPlanAhead (m : Nat) (s : State) : State := { s with clocks := { s.clocks with planAhead := m } }

/-- The claim and LIMITED after the Grant Unit's evaluation of a claim that stood as `b` has it (R85, R91 to R100). -/
abbrev ClaimEvaluated (img : Image) (pumpReady : Bool) (b : State) (g : Grant) (limited : Bool) : Prop :=
  (b.grant.moveState = .still →
    (b.target.offTarget = false ∨ admission img b = .refused → g = b.grant ∧ limited = b.target.limited) ∧
    (b.target.offTarget = true → admission img b = .throughGrant →
      g =
        { b.grant with
          moveState := .want, moveKind := .granted, ticket := min 65535 (highestTicket b + 1), announceTimer := some 0
          horn := false, pumpRun := false, driveEnable := false } ∧
        limited = false) ∧
    (∀ lead, b.target.offTarget = true → admission img b = .bypass lead →
      g = claimWarn b.grant .bypass 0 lead ∧ limited = false)) ∧
  (b.grant.moveState ≠ .still → b.grant.moveState ≠ .moving → limited = b.target.limited) ∧
  (b.grant.moveState = .want →
    (b.target.offTarget = false ∨ admission img b ≠ .throughGrant → g = claimStill b.grant) ∧
    (b.target.offTarget = true → admission img b = .throughGrant →
      (∀ age, b.grant.announceTimer = some age → age < img.params.announceWait → g = b.grant) ∧
      (∀ age, b.grant.announceTimer = some age → img.params.announceWait ≤ age →
        g =
          (if claimants b < img.params.moveLimit then
            claimWarn b.grant .granted b.grant.ticket (img.params.warnLead * 1000)
          else b.grant)))) ∧
  (b.grant.moveState = .warn → b.grant.moveKind = .bypass →
    (b.target.offTarget = false → g = claimStill b.grant) ∧ (b.target.offTarget = true → ClaimProceeds pumpReady b.grant g)) ∧
  (b.grant.moveState = .warn → b.grant.moveKind ≠ .bypass →
    (b.target.offTarget = false ∨ admission img b ≠ .throughGrant → g = claimStill b.grant) ∧
    (b.target.offTarget = true → admission img b = .throughGrant →
      (img.params.moveLimit ≤ yieldCount b → g = claimYielded b.grant) ∧
      (yieldCount b < img.params.moveLimit → ClaimProceeds pumpReady b.grant g))) ∧
  (b.grant.moveState = .moving →
    (b.drive.setpoint = b.target.effective * 1000 → b.target.offTarget = false →
      g = claimStill b.grant ∧ limited = (b.target.effective != b.target.unclamped)) ∧
    (b.drive.setpoint ≠ b.target.effective * 1000 ∨ b.target.offTarget = true →
      g = { b.grant with pumpTimer := if pumpReady then none else some (b.grant.pumpTimer.getD 0) } ∧
        limited = b.target.limited))

/-- The move was checked and its mismatch run counted (R113): the upper 14 bits of the conversion against the code that stood. -/
abbrev RunCounted (tol code : Nat) (conversion : Half) (before after : Nat) : Prop :=
  after =
    (if tol < ((conversion.toNat / 4 : Nat) - (code : Int)).natAbs then (if before < 5 then before + 1 else 5) else 0)

/-- The valve command of a side and its code (R11, R111, R112): the base command less or plus the trim, in −1000..1000, 0 where it drives
outward at a sampled limit, and the code around the centre with the null trim. -/
abbrev ValveDriven (b : State) (sum null command : Int) (code : Nat) : Prop :=
  command =
    (if b.position.upper = true ∧ 0 < max (-1000) (min 1000 sum) ∨ b.position.lower = true ∧ max (-1000) (min 1000 sum) < 0 then 0
     else max (-1000) (min 1000 sum)) ∧
  (code : Int) = max 0 (min 16383 (8192 + (command * 8191).tdiv 1000 + null))

/-- The Drive Unit after an evaluation that found the station as `b` has it (R106, R108 to R113, R115), while no fault has stopped it. -/
abbrev DriveEvaluated (img : Image) (readbackL readbackR : Half) (b : State) (x : Drive) : Prop :=
  (b.grant.driveEnable = true →
    RunCounted img.params.valveTol b.drive.codeL readbackL b.drive.runL x.runL ∧
      RunCounted img.params.valveTol b.drive.codeR readbackR b.drive.runR x.runR) ∧
  (b.grant.driveEnable = false → x.runL = b.drive.runL ∧ x.runR = b.drive.runR) ∧
  (b.grant.moveState ≠ .moving →
    x = { b.drive with
          cmdL := 0, cmdR := 0, codeL := nullCode .left b, codeR := nullCode .right b, runL := x.runL, runR := x.runR }) ∧
  (b.grant.moveState = .moving →
    ∀ speed goal, goal = b.target.effective * 1000 →
      speed =
        (match b.target.speed with
          | .step v => if v = 0 then img.params.defaultSpeed else v
          | .standard => img.params.defaultSpeed
          | .loc => img.params.localSpeed
          | .maint => img.params.maintSpeed
          | .storm => img.params.stormSpeed) →
      x.setpoint =
        (if goal + speed < b.drive.setpoint then b.drive.setpoint - speed
         else if b.drive.setpoint + speed < goal then b.drive.setpoint + speed else goal) ∧
      x.base =
        max (-1000) (min 1000 ((((x.setpoint : Int) - (b.position.opening : Int) * 1000) * img.params.kp).tdiv 1000)) ∧
      ValveDriven b (x.base - (b.position.skew * img.params.ks).tdiv 10) img.nullL x.cmdL x.codeL ∧
      ValveDriven b (x.base + (b.position.skew * img.params.ks).tdiv 10) img.nullR x.cmdR x.codeR ∧
      (∀ w, b.drive.stall = some w →
        x.stall =
          (if x.base.natAbs < 300 ∨ 5 ≤ ((b.position.opening : Int) - w.startOpening).natAbs then
            some { age := 0, startOpening := b.position.opening }
          else some w)))

/-- The order value that an adopted order has at a share (R75, R78, R79): an opening, or none where it is the HEAD hold, with whether a limit
of the orifice arithmetic was reached. -/
abbrev OrderValueIs (img : Image) (o : Order) (share : Nat) (b : State) (v : OrderValue) : Prop :=
  (o.kind = .close → v = { value := some 0, unmet := false }) ∧
  (o.kind = .opening → o.tideLock = true → b.tide.window ≠ .opened → v = { value := some 0, unmet := false }) ∧
  (o.kind = .opening → o.tideLock = false ∨ b.tide.window = .opened →
    v = { value := some (min img.params.openMax o.value), unmet := false }) ∧
  (o.kind = .discharge → b.tide.window ≠ .opened → v = { value := some 0, unmet := false }) ∧
  (o.kind = .discharge → b.tide.window = .opened → b.level.head = none → v = { value := none, unmet := true }) ∧
  (∀ h a, o.kind = .discharge → b.tide.window = .opened → b.level.head = some h →
    a = share * 10000000 / (img.params.gateConstant * isqrt (max h.toNat img.params.hMin * 1000)) →
    v = (if img.params.openMax < a then { value := some img.params.openMax, unmet := true } else { value := some a, unmet := false }))

/-- The unclamped target is this opening, and no hold (R72). -/
abbrev TargetIs (mm : Int) (x : Target) : Prop := (x.unclamped : Int) = mm ∧ x.reason = none

/-- The target is a hold for this reason (R73): the hold opening kept where the evaluation before held for the same reason and had captured it,
else captured now, or pending until the position is established. -/
abbrev TargetHolds (r : HoldReason) (b : State) (x : Target) : Prop :=
  x.reason = some r ∧ x.unclamped = x.holdOpening.getD b.position.opening ∧
    (b.target.reason = some r → b.target.holdOpening.isSome → x.holdOpening = b.target.holdOpening) ∧
    (b.target.reason ≠ some r ∨ b.target.holdOpening = none →
      x.holdOpening = if b.position.established then some b.position.opening else none)

/-- An order value taken as the target (R78): the HEAD hold where there is none. -/
abbrev TargetTakes (value : Option Int) (b : State) (x : Target) : Prop :=
  (∀ a, value = some a → TargetIs a x) ∧ (value = none → TargetHolds .head b x)

/-- An opening brought into 0..OPEN_MAX (R81, R82). -/
abbrev inTravel (img : Image) (x : Int) : Int := max 0 (min (img.params.openMax : Int) x)

/-- The step start opening as an evaluation reads it (R80). -/
abbrev startRead (b : State) : Nat :=
  match b.target.stepStart with
  | .recorded a => a
  | _ => b.position.opening

/-- The Target Unit's target at an evaluation that found the station as `b` has it (R72 to R75, R81). -/
abbrev DemandResolved (img : Image) (raise lower : Bool) (b : State) (x : Target) : Prop :=
  (b.modeCtl.mode = .storm → x.source = .storm ∧ x.speed = .storm ∧ TargetIs 0 x) ∧
  (b.modeCtl.mode = .fault → x.source = .hold ∧ x.speed = .standard ∧ TargetHolds .mode b x) ∧
  (b.modeCtl.mode = .loc ∨ b.modeCtl.mode = .maint →
    x.source = .buttons ∧ x.speed = (if b.modeCtl.mode = .loc then .loc else .maint) ∧
      (raise = true → lower = false → TargetIs img.params.openMax x) ∧ (raise = false → lower = true → TargetIs 0 x) ∧
      (raise = lower → TargetHolds .button b x)) ∧
  (b.modeCtl.mode = .auto →
    (b.order.adopted = none ∨ orderApplies b = false → x.source = .hold ∧ x.speed = .standard ∧ TargetHolds .order b x) ∧
    (∀ o v, b.order.adopted = some o → orderApplies b = true → OrderValueIs img o x.share b v →
      x.shareUnmet = v.unmet ∧
      (o.plan = none → x.source = .track ∧ x.speed = .standard ∧ TargetTakes (v.value.map (fun a => (a : Int))) b x) ∧
      (o.plan ≠ none → b.plan.state ≠ .running ∨ b.plan.current = none →
        x.source = .hold ∧ x.speed = .standard ∧ TargetHolds .plan b x) ∧
      (∀ i r, o.plan ≠ none → b.plan.state = .running → b.plan.current = some i → r = stepAt img i →
        x.source = .step ∧ x.speed = .step r.speed ∧
          (r.kind = .order → TargetTakes (v.value.map (fun a => inTravel img a)) b x) ∧
          (r.kind = .orderPct → TargetTakes (v.value.map (fun a => inTravel img ((a * r.value).fdiv 100))) b x) ∧
          (r.kind = .abs → TargetIs (inTravel img r.value) x) ∧
          (r.kind = .rel → TargetIs (inTravel img ((startRead b : Int) + r.value)) x) ∧
          (r.kind = .closed → TargetIs 0 x) ∧ (r.kind = .hold → TargetIs (inTravel img (startRead b)) x) ∧
          (r.kind = .empty → TargetHolds .plan b x)))) ∧
  (b.modeCtl.mode ≠ .auto ∨ b.order.adopted = none ∨ orderApplies b = false → x.shareUnmet = false)

/-- The Target Unit after an evaluation that found the station as `b` has it, but for LIMITED and the step start opening, which are set at
events of other units (R71 to R84). -/
abbrev TargetEvaluated (img : Image) (raise lower : Bool) (b : State) (x : Target) : Prop :=
  DemandResolved img raise lower b x ∧
  (x.available = true ↔
    b.modeCtl.mode = .auto ∧ orderApplies b = true ∧ haltInForce b = false ∧ hasStopClass b.modeCtl.latched = false ∧
      condition .alone b = false) ∧
  (∀ o n rank, b.order.adopted = some o → n = 1 + (sharers o b).length →
    rank = ((sharers o b).filter (fun k => k < b.loader.strap)).length →
    x.share =
      (if x.available = true ∧ o.kind = .discharge then o.value / n + (if rank < o.value % n then 1 else 0)
       else b.target.share)) ∧
  (b.order.adopted = none → x.share = b.target.share) ∧
  x.effective =
    (if b.modeCtl.mode = .auto ∨ b.modeCtl.mode = .loc then neighbourClamp img (neighbourOpenings img b) x.unclamped
     else x.unclamped) ∧
  x.offTarget = (x.effective + img.params.deadband < b.position.opening || b.position.opening + img.params.deadband < x.effective) ∧
  x.clamped = (x.effective != x.unclamped)

/-! ### Steps of a plan -/

/-- A plan that has passed into ENDED (R141). -/
abbrev planEnded (p : Plan) : Plan :=
  { p with
    state := .ended, interp := .cleared, queue := [], current := none, dwell := 0, finishAtHold := false, resume := none }

/-- A plan that an interpreter error has stopped (R129). -/
abbrev planFailed (p : Plan) : Plan :=
  { p with state := .failed, interp := .cleared, queue := [], current := none, finishAtHold := false, resume := none }

/-- A step that has begun (R133), with the queue that is left. -/
abbrev planBegun (img : Image) (i : Nat) (rest : List Nat) (p : Plan) : Plan :=
  { p with queue := rest, current := some i, phase := .aim, dwell := (stepAt img i).dwell * 1000, aimJudged := false }

/-- The start opening that a step records as it begins (R80). -/
abbrev startNow (b : State) : StepStart := if b.position.established then .recorded b.position.opening else .pending

/-- What a take makes of a RUNNING plan `q` without a current step (R132): the plan `p` and the step start opening `start`. The head of the
queue begins and the queue is refilled, which can fail (R129); with nothing queued and the ended flag set the plan has ended. -/
abbrev StepTaken (img : Image) (b : State) (q p : Plan) (start : StepStart) : Prop :=
  (∀ i rest, q.queue = i :: rest →
    (∀ r, refillLoop img refillFuel (planBegun img i rest q) = some r → p = r ∧ start = startNow b) ∧
    (refillLoop img refillFuel (planBegun img i rest q) = none → p = planFailed (planBegun img i rest q) ∧ start = .absent)) ∧
  (q.queue = [] → q.interp.ended = true → p = planEnded q ∧ start = .absent)

/-- What a start of plan `n` makes of the plan of `b`, whose order has been adopted (R140): FAILED where the directory entry is EMPTY or the first
refill errs; else RUNNING with its queue filled, and unless HALT is in force the first step is taken. -/
abbrev PlanStarted (img : Image) (n : Nat) (b : State) (p : Plan) (start : StepStart) : Prop :=
  ∀ fresh, fresh =
      { b.plan with
        number := some n, interp := .cleared, queue := [], current := none, dwell := 0, finishAtHold := false, resume := none } →
    (img.directory.getD n none = none → p = planFailed fresh ∧ start = .absent) ∧
    (∀ a first, img.directory.getD n none = some a →
      first = { fresh with state := .running, interp := { Interp.cleared with codePtr := a } } →
      (refillLoop img refillFuel first = none → p = planFailed first ∧ start = .absent) ∧
      (∀ q, refillLoop img refillFuel first = some q →
        (haltInForce b = true → p = q ∧ start = .absent) ∧ (haltInForce b = false → StepTaken img b q p start)))

/-- A plan that has passed into IDLE (R141). -/
abbrev planIdle (p : Plan) : Plan :=
  { p with
    state := .idle, number := none, interp := .cleared, queue := [], current := none, dwell := 0, finishAtHold := false
    resume := none }

/-- Plan, tide, step start opening and latched set stand as they stood in `b`. -/
abbrev PlanUntouched (b t : State) : Prop :=
  t.plan = b.plan ∧ t.tide = b.tide ∧ t.target.stepStart = b.target.stepStart ∧ t.modeCtl.latched = b.modeCtl.latched

/-- PLAN_BAD has been latched where the plan has failed, over a latched set `kept` (R129, R130). -/
abbrev PlanBadLatched (kept : FaultSet) (b t : State) : Prop :=
  (t.plan.state ≠ .failed → t.modeCtl.latched = kept) ∧
  (t.plan.state = .failed → condition .planBad b = false → t.modeCtl.latched = addFault .planBad kept)

/-- What the plan action of the adopted order makes of the plan of `b` (R58): without a plan to follow a live plan becomes IDLE, the live plan
that the order names goes on, and any other is started afresh (R140). -/
abbrev PlanActionTaken (img : Image) (b t : State) : Prop :=
  (b.order.adopted = none → PlanUntouched b t) ∧
  ∀ o, b.order.adopted = some o →
    (o.mask.getLsbD b.loader.strap = false ∨ o.plan = none →
      (PlanLive b.plan.state →
        t.plan = planIdle b.plan ∧ t.target.stepStart = .absent ∧ t.tide = b.tide ∧
          t.modeCtl.latched = b.modeCtl.latched) ∧
      (¬ PlanLive b.plan.state → PlanUntouched b t)) ∧
    (∀ n, o.mask.getLsbD b.loader.strap = true → o.plan = some n →
      (PlanLive b.plan.state → b.plan.number = some n → o.restartPlan = false → PlanUntouched b t) ∧
      (¬ PlanLive b.plan.state ∨ b.plan.number ≠ some n ∨ o.restartPlan = true →
        PlanStarted img n b t.plan t.target.stepStart ∧ t.tide = { b.tide with expected := .opens, latch := false } ∧
          PlanBadLatched (dropFault .planBad b.modeCtl.latched) b t))

/-- What the adoption of `o` in AUTO makes of the plan of `b` (R58, R132, R144): a live plan becomes IDLE where there is none to follow, the
live plan that the order names goes on, and takes its step where it has none and HALT is not in force, and any other is started afresh. -/
abbrev PlanAdopted (img : Image) (o : Order) (b r : State) : Prop :=
  (o.mask.getLsbD b.loader.strap = false ∨ o.plan = none →
    (PlanLive b.plan.state →
      r.plan = planIdle b.plan ∧ r.target.stepStart = .absent ∧ r.tide = b.tide ∧ r.modeCtl.latched = b.modeCtl.latched) ∧
    (¬ PlanLive b.plan.state → PlanUntouched b r)) ∧
  (∀ n, o.mask.getLsbD b.loader.strap = true → o.plan = some n →
    (PlanLive b.plan.state → b.plan.number = some n → o.restartPlan = false →
      (b.plan.state = .held ∨ b.plan.current ≠ none ∨ o.halt = true → PlanUntouched b r) ∧
      (b.plan.state = .running → b.plan.current = none → o.halt = false →
        StepTaken img b b.plan r.plan r.target.stepStart ∧ r.tide = b.tide ∧ PlanBadLatched b.modeCtl.latched b r)) ∧
    (¬ PlanLive b.plan.state ∨ b.plan.number ≠ some n ∨ o.restartPlan = true →
      PlanStarted img n b r.plan r.target.stepStart ∧ r.tide = { b.tide with expected := .opens, latch := false } ∧
        PlanBadLatched (dropFault .planBad b.modeCtl.latched) b r))

/-- The plan, the tide, the step start opening, the latched set and the save after an adoption (R58, R142, R149, R155): `r` is the station after
the plan action, which acts in AUTO alone, and before the entry into STORM that the order may make. -/
abbrev PlanAfterAdoption (img : Image) (o : Order) (b t : State) : Prop :=
  ∃ r : State,
    (b.modeCtl.mode = .auto → PlanAdopted img o b r) ∧ (b.modeCtl.mode ≠ .auto → PlanUntouched b r) ∧
    t.tide = r.tide ∧ t.target.stepStart = r.target.stepStart ∧ t.modeCtl.latched = r.modeCtl.latched ∧
    (t.modeCtl.mode = b.modeCtl.mode → t.plan = r.plan ∧ t.modeCtl.save = b.modeCtl.save) ∧
    (t.modeCtl.mode ≠ b.modeCtl.mode →
      t.plan = (if b.modeCtl.mode = .auto then planHeld r.plan else r.plan) ∧
      t.modeCtl.save =
        some (b.modeCtl.save.getD
          { state := r.plan.state, number := r.plan.number, interp := r.plan.interp, queue := r.plan.queue
            current := r.plan.current, phase := r.plan.phase, dwell := r.plan.dwell, expected := r.tide.expected }))

/-- The claim after an adoption (R59, R101): stopped by HALT in AUTO; else as it was, or treated as at every entry into STORM. -/
abbrev ClaimAfterAdoption (img : Image) (b t : State) : Prop :=
  (b.modeCtl.mode = .auto → haltInForce b = true →
    t.target.limited = b.target.limited ∧
    t.grant = (if b.grant.moveState = .still then b.grant else claimStill b.grant) ∧
    t.drive = (if b.grant.moveState = .moving then driveHalted b else b.drive)) ∧
  (b.modeCtl.mode ≠ .auto ∨ haltInForce b = false →
    (t.modeCtl.mode = b.modeCtl.mode →
      t.grant = b.grant ∧ t.drive = b.drive ∧ t.target.limited = b.target.limited) ∧
    (t.modeCtl.mode ≠ b.modeCtl.mode → ClaimBypassed (img.params.warnLead * 1000) b t))

/-- What the adoption of `o` makes of the station, where `b` has the order in the place of the one before (R56, R58, R59, R60, R154, R156): the
plan action is taken or becomes pending, HALT acts, and the order's STORM flag is a storm condition, whose demand takes AUTO and LOCAL to
STORM (R149). -/
abbrev AdoptionActs (img : Image) (o : Order) (b t : State) : Prop :=
  t.order.deferred = (if b.modeCtl.mode = .auto then b.order.deferred else true) ∧
  t.modeCtl.condOrder = o.storm ∧ t.modeCtl.condInput = b.modeCtl.condInput ∧ t.modeCtl.condLevel = b.modeCtl.condLevel ∧
  t.modeCtl.mode =
    (if stormDemand t = true ∧ (b.modeCtl.mode = .auto ∨ b.modeCtl.mode = .loc) then .storm else b.modeCtl.mode) ∧
  t.modeCtl.relay = (if t.modeCtl.mode = b.modeCtl.mode then b.modeCtl.relay else true) ∧
  t.modeCtl.stormClear =
    (if stormDemand t = true then none
     else if stormDemand b = true ∧ b.modeCtl.mode = .storm then some 0 else b.modeCtl.stormClear) ∧
  PlanAfterAdoption img o b t ∧ ClaimAfterAdoption img b t

/-- What a storm save `c` makes of the plan of `b` as it is restored into AUTO (R145, R157; log 41): a plan saved RUNNING runs on with its queue
refilled, its current step aimed again or its next step taken, or fails; one saved HELD stands at its resume point. -/
abbrev PlanRestored (img : Image) (c : StormSave) (b t : State) : Prop :=
  t.tide = { b.tide with expected := c.expected } ∧
  ∀ q, q = { b.plan with
             state := c.state, number := c.number, interp := c.interp, queue := c.queue, current := c.current, phase := c.phase
             dwell := c.dwell } →
    (c.state = .running →
      ∀ r, r = { q with
                 resume := none, phase := if c.current.isSome then .aim else c.phase
                 aimJudged := if c.current.isSome then false else b.plan.aimJudged } →
        PlanBadLatched b.modeCtl.latched b t ∧
        (refillLoop img refillFuel r = none → t.plan = planFailed r ∧ t.target.stepStart = .absent) ∧
        (∀ p, refillLoop img refillFuel r = some p →
          (c.current.isSome ∨ haltInForce b = true → t.plan = p ∧ t.target.stepStart = b.target.stepStart) ∧
          (c.current = none → haltInForce b = false → StepTaken img b p t.plan t.target.stepStart))) ∧
    (c.state = .held →
      t.plan = { q with resume := if c.phase = .done ∨ c.current = none then some .next else some .current }) ∧
    (¬ PlanLive c.state → t.plan = q) ∧
    (c.state ≠ .running → t.target.stepStart = b.target.stepStart ∧ t.modeCtl.latched = b.modeCtl.latched)

/-- The plan of `b` after an entry into AUTO (R58, R150, R157): a save that is held is restored, and a plan action that is pending is then
determined afresh and taken, so that none is pending. `r` is the station between the two. -/
abbrev PlanAtAutoEntry (img : Image) (b t : State) : Prop :=
  t.order.deferred = false ∧ t.modeCtl.save = none ∧
  ∃ r : State,
    (r.loader = b.loader ∧ r.order = b.order ∧ r.position = b.position) ∧
      (condition .planBad b = false → condition .planBad r = false) ∧
      (b.modeCtl.save = none → PlanUntouched b r) ∧ (∀ c, b.modeCtl.save = some c → PlanRestored img c b r) ∧
      (b.order.deferred = false → PlanUntouched r t) ∧ (b.order.deferred = true → PlanActionTaken img r t)

/-- What follows as a step `i` of a RUNNING plan reaches DONE (R137): `q` is the plan in DONE, `p` the plan after it. -/
abbrev StepFinished (img : Image) (b : State) (i : Nat) (q p : Plan) (start : StepStart) : Prop :=
  ((stepAt img i).last = true → p = planEnded q ∧ start = .absent) ∧
  ((stepAt img i).last = false → (stepAt img i).holdPoint = true → q.finishAtHold = true →
    p = { q with state := .held, resume := some .next, finishAtHold := false } ∧ start = b.target.stepStart) ∧
  ((stepAt img i).last = false → (stepAt img i).holdPoint = false ∨ q.finishAtHold = false →
    StepTaken img b { q with current := none } p start)

/-- What follows as a step `i` passes to TIDE (R136): with TIDE_WAIT and an empty latch it waits there; else it reaches DONE, a set latch being
taken where TIDE_WAIT is set. `q` is the plan in TIDE. -/
abbrev TidePassed (img : Image) (b : State) (i : Nat) (q p : Plan) (tide : Tide) (start : StepStart) : Prop :=
  ((stepAt img i).tideWait = true → b.tide.latch = false → p = q ∧ tide = b.tide ∧ start = b.target.stepStart) ∧
  ((stepAt img i).tideWait = false ∨ b.tide.latch = true →
    tide =
      (if (stepAt img i).tideWait then
        { b.tide with latch := false, expected := match b.tide.expected with | .opens => .closes | .closes => .opens }
      else b.tide) ∧
    StepFinished img b i { q with phase := .done } p start)

/-- The plan, the tide and the step start opening after the Plan Sequencer's evaluation of a station that stood as `b` has it (R123, R134 to
R137, R144). -/
abbrev PlanEvaluated (img : Image) (b : State) (p : Plan) (tide : Tide) (start : StepStart) : Prop :=
  (b.plan.state ≠ .running ∨ haltInForce b = true ∨ b.plan.current = none →
    p = b.plan ∧ tide = b.tide ∧ start = b.target.stepStart) ∧
  (∀ i, b.plan.state = .running → haltInForce b = false → b.plan.current = some i →
    (b.plan.phase = .aim →
      (b.grant.moveState ≠ .still ∨ b.target.offTarget = true ∨ b.target.clamped = true ∨ b.plan.aimJudged = false →
        p = b.plan ∧ tide = b.tide ∧ start = b.target.stepStart) ∧
      (b.grant.moveState = .still → b.target.offTarget = false → b.target.clamped = false → b.plan.aimJudged = true →
        (0 < b.plan.dwell → p = { b.plan with phase := .dwell } ∧ tide = b.tide ∧ start = b.target.stepStart) ∧
        (b.plan.dwell = 0 → TidePassed img b i { b.plan with phase := .tide } p tide start))) ∧
    (b.plan.phase = .dwell →
      (60 < b.plan.dwell →
        p = { b.plan with dwell := b.plan.dwell - 60 } ∧ tide = b.tide ∧ start = b.target.stepStart) ∧
      (b.plan.dwell ≤ 60 → TidePassed img b i { b.plan with dwell := 0, phase := .tide } p tide start)) ∧
    (b.plan.phase = .tide → TidePassed img b i b.plan p tide start))

/-- The Sequencer's evaluation of a station that stood as `b` has it ends its step and passes on from it: third row of R137. -/
abbrev StepPassesOn (img : Image) (b : State) : Prop :=
  b.plan.state = .running ∧ haltInForce b = false ∧
  (∃ i, b.plan.current = some i ∧ (stepAt img i).last = false ∧
    ((stepAt img i).holdPoint = false ∨ b.plan.finishAtHold = false) ∧ ((stepAt img i).tideWait = false ∨ b.tide.latch = true)) ∧
  (b.plan.phase = .tide ∨ b.plan.phase = .dwell ∧ b.plan.dwell ≤ 60 ∨
    b.plan.phase = .aim ∧ b.plan.dwell = 0 ∧ b.grant.moveState = .still ∧ b.target.offTarget = false ∧ b.target.clamped = false ∧
      b.plan.aimJudged = true)

/-- What R43 lists has happened: it waits under the mark, or has been built into the STATE slot (R44). -/
abbrev MarkedOrReported (t : State) : Prop := t.line.mark = true ∨ ∃ f, t.line.stateSlot = some f ∧ CarriesState f t

/-! ### Hypotheses the statements share -/

/-- The station serves: the image is accepted and no reset lasts (R183). -/
abbrev Serving (s : State) (img : Image) : Prop := acceptedImage s = some img ∧ s.loader.inReset = false

/-- A COMMAND frame from this console reaches the station (R62). -/
abbrev CommandReaches (s : State) (source target : Byte) : Prop :=
  receiving s = true ∧ 16 ≤ source.toNat ∧ source.toNat ≤ 23 ∧ (target.toNat = 255 ∨ target.toNat = s.loader.strap)

/-- The fields of a COMMAND frame with one of the seven codes, and the authority the code requires (R53, R62, R185). -/
structure CommandFields where
  source : Byte
  target : Byte
  tag : Byte
  code : Nat
  level : Nat

/-- The COMMAND frame that an event stands for, if it is one of the seven commands. -/
def commandOf (i : Instr) : Option CommandFields :=
  match i with
  | .resume source target _ tag => some ⟨source, target, tag, 1, 1⟩
  | .finishAtHold source target _ tag => some ⟨source, target, tag, 2, 1⟩
  | .tideEvent source target _ tag => some ⟨source, target, tag, 3, 1⟩
  | .abandon source target _ tag => some ⟨source, target, tag, 4, 2⟩
  | .clearFault source target _ tag => some ⟨source, target, tag, 5, 2⟩
  | .clearCounts source target _ tag => some ⟨source, target, tag, 6, 2⟩
  | .restart source target _ tag _ => some ⟨source, target, tag, 7, 3⟩
  | _ => none

/-- A level or a head that a signed field of this half range carries beside the absent marker (R185). -/
abbrev FitsSigned (half : Int) (x : Option Int) : Prop := ∀ v ∈ x, -half < v ∧ v < half

/-- The content of a STATE that its fields can carry (R185, R187). -/
abbrev StateFits (f : StateFrame) : Prop :=
  f.ticket < 65536 ∧ f.planNumber < 256 ∧ f.stepIndex < 256 ∧ f.opening < 65536 ∧ -32768 ≤ f.skew ∧ f.skew < 32768 ∧
    f.effective < 65536 ∧ f.unclamped < 65536 ∧ FitsSigned 2147483648 f.upLevel ∧ FitsSigned 2147483648 f.dnLevel ∧
    f.orderNumber < 4294967296 ∧ f.orderOrigin < 256 ∧ f.orderKind < 256 ∧ f.orderValue < 65536 ∧ f.orderPlan < 256 ∧
    f.reportPeriod < 65536 ∧ f.firstKind < 256 ∧ f.firstDay < 65536 ∧ f.firstMs < 4294967296 ∧ f.commandSource < 256 ∧
    f.commandTag < 256 ∧ f.commandCode < 256 ∧ f.commandResult < 256 ∧ f.errors < 256 ∧ f.cause < 256

/-- The record of a tide event that its fields can carry (R185, R186). -/
abbrev TideFits (r : TideRecord) : Prop := r.day < 65536 ∧ r.ms < 4294967296 ∧ FitsSigned 32768 r.head

/-! ### The initial state, item by item -/

/-- An encoder side after reset (R13). -/
abbrev EncoderAtReset (e : EncoderSide) : Prop :=
  e.lastCount = none ∧ e.failRun = 0 ∧ e.goodRun = 0 ∧ e.sideOpening = 0 ∧ e.readTimer = none

/-- The Position Unit after reset (R13). -/
abbrev PositionAtReset (p : Position) : Prop :=
  EncoderAtReset p.left ∧ EncoderAtReset p.right ∧ p.opening = 0 ∧ p.skew = 0 ∧ p.established = false ∧ p.upper = false ∧
    p.lower = false ∧ p.upperTaken = false ∧ p.lowerTaken = false

/-- A level channel after reset (R22). -/
abbrev ChannelAtReset (c : Channel) : Prop :=
  c.ring = [] ∧ c.railRun = 0 ∧ c.goodRun = 0 ∧ c.filtered = none ∧ c.used = none ∧ c.source = .absent

/-- Level Unit and Tide Monitor after reset (R22, R32). -/
abbrev RiverAtReset (l : LevelUnit) (x : Tide) : Prop :=
  ChannelAtReset l.up ∧ ChannelAtReset l.dn ∧ l.head = none ∧ x.window = .undecided ∧ x.candidate = 0 ∧ x.blind = false ∧
    x.expected = .opens ∧ x.latch = false

/-- Order Unit after reset (R69), but for the weir clock. -/
abbrev OrderAtReset (o : OrderUnit) : Prop := o.adopted = none ∧ o.lastCommand = none ∧ o.deferred = false

/-- Target Unit after reset (R86). -/
abbrev TargetAtReset (x : Target) : Prop :=
  x.effective = 0 ∧ x.unclamped = 0 ∧ x.source = .unset ∧ x.reason = none ∧ x.holdOpening = none ∧ x.stepStart = .absent ∧
    x.available = false ∧ x.share = 0 ∧ x.shareUnmet = false ∧ x.limited = false ∧ x.speed = .standard

/-- Grant Unit after reset (R104). -/
abbrev GrantAtReset (g : Grant) : Prop :=
  g.moveState = .still ∧ g.moveKind = .noClaim ∧ g.ticket = 0 ∧ g.announceTimer = none ∧ g.warnTimer = none ∧
    g.pumpTimer = none ∧ g.horn = false ∧ g.pumpRun = false ∧ g.driveEnable = false

/-- Drive Unit after reset (R120). -/
abbrev DriveAtReset (x : Drive) : Prop :=
  x.setpoint = 0 ∧ x.base = 0 ∧ x.cmdL = 0 ∧ x.cmdR = 0 ∧ x.codeL = 8192 ∧ x.codeR = 8192 ∧ x.runL = 0 ∧ x.runR = 0 ∧
    x.stall = none

/-- Plan Sequencer after reset (R147). -/
abbrev PlanAtReset (p : Plan) : Prop :=
  p.state = .idle ∧ p.number = none ∧ p.interp.codePtr = 0 ∧ p.interp.loops = [] ∧ p.interp.calls = [] ∧
    p.interp.cursor = none ∧ p.interp.ended = false ∧ p.interp.spin = 0 ∧ p.queue = [] ∧ p.current = none ∧ p.phase = .aim ∧
    p.dwell = 0 ∧ p.finishAtHold = false ∧ p.resume = none

/-- Mode Controller after reset (R165). -/
abbrev ModeAtReset (m : ModeCtl) : Prop :=
  m.mode = .start ∧ m.maintKey = false ∧ m.localKey = false ∧ m.stormInput = false ∧ m.condOrder = false ∧
    m.condInput = false ∧ m.condLevel = false ∧ m.stormClear = none ∧ m.save = none ∧ m.active = 0 ∧ m.latched = 0 ∧
    m.firstFault = none ∧ m.relay = false

/-- Peer Table, reporting schedule and Line Interface after a reset of this cause (R48, R179). -/
abbrev LineAtReset (p : Peers) (l : Line) (cause : RestartCause) : Prop :=
  p.rows = List.replicate 16 { age := 0, content := none } ∧ p.duplicateTimer = none ∧ l.stateSlot = none ∧ l.tideSlot = none ∧ l.sending = none ∧
    l.errors = 0 ∧ l.txTimer = none ∧ l.dominantRun = none ∧ l.lineSilent = 0 ∧ l.reportTimer = none ∧
    Config.gapMs ≤ l.gapTimer ∧ l.mark = false ∧ l.causeToCarry = some cause

/-- The station is in START: every block is in the initial state its chapter gives, with no content of an image (R180), but for the weir
clock and the gap timer, which have counted since the end of the reset (R44, R61). -/
abbrev InStart (t : State) : Prop :=
  PositionAtReset t.position ∧ RiverAtReset t.level t.tide ∧ OrderAtReset t.order ∧ TargetAtReset t.target ∧
    GrantAtReset t.grant ∧ DriveAtReset t.drive ∧ PlanAtReset t.plan ∧ ModeAtReset t.modeCtl ∧
    LineAtReset t.peers t.line t.loader.cause ∧ t.loader.image = .unread

/-- Every block is in the initial state its chapter gives (R180), the weir clock at 0 with the others (R61, R69). -/
abbrev AtReset (t : State) : Prop := InStart t ∧ t.order.clockDay = 0 ∧ t.order.clockMs = 0

end Sys2Proof.Safety
end

