-- ==== Sys2Proof/Certificates/Slice0/Obligations.lean ====
section
/-! DEFINITION. The statements for the provers, in the order of OBLIGATIONS.json. A statement of what an event does has as its conclusion the
next state: which items change and to what, and, as an equation with a record update, that nothing else changes. -/

open Sys2Proof Sys2Proof.Machine Sys2Proof.Safety

/-! ### The step -/

/-- The step takes the event at the front of the queue and runs it with the queue's rest. On an empty queue one millisecond passes, which
is the model's choice (log 3). -/
def Obligations.StepRunsFrontEvent : Prop :=
  ∀ (i : Instr) (rest : List Instr) (s : State),
    step (s.withPending (i :: rest)) = exec i (s.withPending rest) ∧
      step (s.withPending []) = .next (elapse 1 (s.withPending []))

/-- Every event completes from every state, and leaves the queue alone. That no event of the table stops the part with a fault or a refusal
is deduced (log 30). -/
def Obligations.EveryEventCompletes : Prop :=
  ∀ (i : Instr) (s : State), ∃ t, exec i s = .next t ∧ t.pending = s.pending

/-! ### Reset and image -/

/-- A power-on or the reset input brings every block to the initial state of its chapter, and the reset lasts; its end leaves the initial
state, samples the straps and begins the image read, with the cause as it was. That POWER stays the cause when the reset input follows
within one reset is deduced (log 27). -/
def Obligations.ResetRestoresInitialState : Prop :=
  (∀ (supply : Bool) (s : State), ∃ t, exec (.powerOnReset supply) s = .next t ∧ AtReset t ∧ t.loader.attempts = 0 ∧
    t.loader.inReset = true ∧ t.loader.reading = false ∧
    t.loader.cause = (if supply ∨ (s.loader.inReset = true ∧ s.loader.cause = .power) then .power else .pin)) ∧
  (∀ (straps : BitVec 4) (s : State), s.loader.inReset = true →
    ∃ t, exec (.resetEnd straps) s = .next t ∧ AtReset t ∧ t.loader.attempts = 0 ∧ t.loader.inReset = false ∧
      t.loader.strap = straps.toNat ∧ t.loader.reading = true ∧ t.loader.cause = s.loader.cause)

/-- A RESTART from a console of authority 3 resets the station at once: every block in its initial state, the image read begun, the cause
RESTART to be carried, and nothing answered. From a console below authority 3 it is answered REFUSED_AUTHORITY and nothing is reset. -/
def Obligations.RestartResetsStation : Prop :=
  ∀ (source target argument tag : Byte) (straps : BitVec 4) (s : State) (img : Image),
    CommandReaches s source target → acceptedImage s = some img →
    (3 ≤ authorityOf img source.toNat →
      ∃ t, exec (.restart source target argument tag straps) s = .next t ∧ AtReset t ∧ t.loader.attempts = 0 ∧
        t.loader.inReset = false ∧ t.loader.strap = straps.toNat ∧ t.loader.reading = true ∧ t.loader.cause = .restart ∧
        t.line.causeToCarry = some .restart ∧ t.order.lastCommand = none ∧ t.line.stateSlot = none ∧ t.line.tideSlot = none) ∧
    (authorityOf img source.toNat < 3 →
      ∃ t, exec (.restart source target argument tag straps) s = .next t ∧ Answered source tag 7 .refusedAuthority t ∧
        t = { s with
              order := answeredOrder s.order source tag 7 .refusedAuthority, modeCtl := heardModes s.modeCtl
              line := t.line } ∧
        Reported (heardLine s.line) t.line)

/-- A failed attempt below the fourth is counted and starts the wait; the end of the wait, 10 ms long, begins the next attempt. The attempt
is counted at its end (log 9, deduced). The time first runs on to the moment of the event, which is the model's choice (log 1). -/
def Obligations.FailedReadIsTriedAgain : Prop :=
  ∀ s : State, s.loader.inReset = false →
    (s.loader.reading = true → s.loader.attempts < 3 →
      ∃ t, exec .imageReadFailed s = .next t ∧
        t = { s with
              loader := { s.loader with attempts := s.loader.attempts + 1, reading := false, retryTimer := some 0 }
              line := t.line } ∧
        Reported s.line t.line) ∧
    (∀ age, s.loader.retryTimer = some age →
      ∃ t, exec .imageReadRetry s = .next t ∧
        t = { elapse (10 - age) s with
              loader := { (elapse (10 - age) s).loader with retryTimer := none, reading := true }
              line := t.line } ∧
        Reported (elapse (10 - age) s).line t.line)

/-- A station in START stays as its chapters' initial states give it, but for what counts time, until the image has been read. A fourth
failed attempt, and a completed read whose content fails a check, leave the station in FAULT with CONFIG active, latched and first at the
weir time of that moment, and build the first STATE with the restart cause. The attempt is counted at its end (log 9, deduced). That no
change of the line's level is held before the end of the read is the model's choice (log 40). -/
def Obligations.RejectedImageFaults : Prop :=
  (∀ s t : State, InStart s → s.line.changes = [] → step s = .next t → t.loader.image = .unread →
    InStart t ∧ t.line.changes = []) ∧
  (∀ (s : State) (i : Instr), InStart s → s.loader.inReset = false → s.loader.reading = true →
    (i = .imageReadFailed ∧ s.loader.attempts = 3 ∨
      ∃ bytes inputs up dn, i = .imageReadComplete bytes inputs up dn ∧ bytes.length = 2048 ∧
        checkedImage s.loader.strap bytes = none) →
    ∃ t f, exec i s = .next t ∧
      t.loader = { s.loader with image := .rejected, attempts := s.loader.attempts + 1, reading := false } ∧
      StandsInFault t ∧ t.modeCtl.active = onlyFault .config ∧ t.modeCtl.latched = onlyFault .config ∧
      t.modeCtl.firstFault = some { kind := .config, day := s.order.clockDay, ms := s.order.clockMs } ∧
      t.line.stateSlot = some f ∧ CarriesState f t ∧ f.mode = .fault ∧ f.latched = onlyFault .config ∧
      f.cause = causeCode (some s.loader.cause) ∧
      t = { s with loader := t.loader, modeCtl := t.modeCtl, grant := t.grant, line := t.line })

/-- An accepted image takes the station out of START: into the key-implied mode of the first sample, or into STORM when that mode is AUTO
or LOCAL and the storm demand is true; the relay closes, both encoder reads start, the first STATE is built with the restart cause,
whatever the attempt and the weir time. The order of what acceptance does at one moment is the model's (log 10); the limit samples stand
for the other blocks from the end of the reads on (log 8, deduced). -/
def Obligations.AcceptedImageStartsService : Prop :=
  ∀ (s : State) (bytes : List Byte) (inputs : TickInputs) (up dn : Half) (img : Image),
    InStart s → s.loader.inReset = false → s.loader.reading = true → bytes.length = 2048 →
    checkedImage s.loader.strap bytes = some img →
    ∃ t f, exec (.imageReadComplete bytes inputs up dn) s = .next t ∧ t.loader.image = .accepted img ∧
      t.loader.reading = false ∧
      t.modeCtl.mode =
        (if inputs.maintKey then .maint
         else if inputs.stormInput || levelStorms img.params t then .storm
         else if inputs.localKey then .loc else .auto) ∧
      t.modeCtl.relay = true ∧ t.grant = s.grant ∧ t.plan.state = .idle ∧
      t.position.left.readTimer = some 0 ∧ t.position.right.readTimer = some 0 ∧
      t.position.upperTaken = inputs.upperSwitch ∧ t.position.lowerTaken = inputs.lowerSwitch ∧
      t.position.upper = false ∧ t.position.lower = false ∧ t.order.clockDay = s.order.clockDay ∧ t.order.clockMs = s.order.clockMs ∧
      t.drive.setpoint = 0 ∧ t.drive.codeL = nullCode .left t ∧ t.drive.codeR = nullCode .right t ∧
      t.line.lineSilent = 0 ∧ t.peers = s.peers ∧ t.order.adopted = none ∧
      t.line.stateSlot = some f ∧ CarriesState f t ∧ f.mode = t.modeCtl.mode ∧ f.cause = causeCode (some s.loader.cause)

/-! ### Gate position -/

/-- While the read of the other side is still open, a reply to the open read's own request within its window ends the read of its side as
good or failed, and touches nothing else. With no read in progress, after the window, or to an earlier request, whose window has closed, it
is discarded, also inside the window of the open read. The end of the window, 20 ms after the request, fails the read; the held count
stays. That a third failure or an eighth good read that ends first changes nothing of its side's condition before the other read has ended
is deduced (log 6). The time first runs on to the moment of the event (log 1), and the request that a reply answers is an operand (log 38):
the model's choices. -/
def Obligations.EncoderReadEnds : Prop :=
  ∀ (side other : Side) (raw : Half) (verifies : Bool) (s b : State) (img : Image) (e e' : EncoderSide), Serving s img →
    other ≠ side → e = encoderOf side s.position →
    e' =
      (if verifies = true ∧ ∀ c, e.lastCount = some c → raw.toNat ≤ c + 256 ∧ c ≤ raw.toNat + 256 then
        { e with
          lastCount := some raw.toNat, failRun := 0, readTimer := none
          goodRun := if condition (encoderKind side) s then (if e.goodRun < 8 then e.goodRun + 1 else 8) else 0 }
      else { e with failRun := if e.failRun < 255 then e.failRun + 1 else 255, goodRun := 0, readTimer := none }) →
    (∀ age, e.readTimer = some age → age ≤ 20 → (encoderOf other s.position).readTimer.isSome →
      ∃ t, exec (.encoderReply { side := side, later := 0 } raw verifies) s = .next t ∧
        t = { s with position := setEncoder side e' s.position, line := t.line } ∧ Reported s.line t.line) ∧
    (∀ later, e.readTimer = none ∨ (∃ age, e.readTimer = some age ∧ 20 < age) ∨ 0 < later →
      ∃ t, exec (.encoderReply { side := side, later := later } raw verifies) s = .next t ∧ Quiet s t) ∧
    (∀ age, e.readTimer = some age → (encoderOf other s.position).readTimer.isSome → b = elapse (20 - age) s →
      ∃ t, exec (.replyWindow side) s = .next t ∧
        t = { b with
              position := setEncoder side
                { e with
                  failRun := if e.failRun < 255 then e.failRun + 1 else 255, goodRun := 0, readTimer := none } b.position
              line := t.line } ∧
        Reported b.line t.line)

/-- The end of the second read of a tick, by a reply to its own request within its window or by the end of the window, forms the side
openings, the gate opening and the skew, hands on the limit samples of the tick, judges them against the new opening, makes a side's
condition active at a third failure and latched, and inactive at an eighth good read, which clears the good run. The conditions are judged
once, when both reads have ended (log 6, deduced), and the limit samples change there (log 8, deduced). Where all that is active is
latched, ENC_L, ENC_R and TRAVEL are latched together; where one that is stop-class enters the latched set in AUTO, LOCAL, MAINT or STORM,
the station stands in FAULT, the claim gone, the valves at rest and a RUNNING plan held, and else mode, claim, drive and plan stay. The
time first runs on to the end of a window, and the request that a reply answers is an operand: the model's choices (logs 1 and 38). -/
def Obligations.PositionIsFormedFromBothReads : Prop :=
  ∀ (side other : Side) (raw : Half) (verifies : Bool) (s b : State) (i : Instr) (img : Image) (p : Position) (age : Nat),
    Serving s img → other ≠ side → (encoderOf side s.position).readTimer = some age →
    (encoderOf other s.position).readTimer = none →
    (i = .encoderReply { side := side, later := 0 } raw verifies ∧ age ≤ 20 ∧ b = s ∧
        p = setEncoder side
          (if replyGood (encoderOf side s.position) raw.toNat verifies then
            goodRead (condition (encoderKind side) s) raw.toNat (encoderOf side s.position)
          else failedRead (encoderOf side s.position)) s.position ∨
      i = .replyWindow side ∧ b = elapse (20 - age) s ∧
        p = setEncoder side (failedRead (encoderOf side s.position)) s.position) →
    ∃ t, exec i s = .next t ∧
      t.position.left.sideOpening = sideOpeningOf img img.encZeroL p.left ∧
      t.position.right.sideOpening = sideOpeningOf img img.encZeroR p.right ∧
      t.position.opening = min img.params.openMax ((t.position.left.sideOpening + t.position.right.sideOpening) / 2) ∧
      t.position.skew = (t.position.left.sideOpening : Int) - t.position.right.sideOpening ∧
      t.position.left.lastCount = p.left.lastCount ∧ t.position.right.lastCount = p.right.lastCount ∧
      t.position.left.readTimer = none ∧ t.position.right.readTimer = none ∧
      (t.position.established = true ↔
        s.position.established = true ∨ (p.left.lastCount.isSome = true ∧ p.right.lastCount.isSome = true)) ∧
      t.position.upper = s.position.upperTaken ∧ t.position.lower = s.position.lowerTaken ∧
      t.position.upperTaken = s.position.upperTaken ∧ t.position.lowerTaken = s.position.lowerTaken ∧
      (condition .travel t = true ↔
        (t.position.upper = true ∧ t.position.opening + 200 < img.params.openMax) ∨
          (t.position.lower = true ∧ 200 < t.position.opening)) ∧
      (condition .encL t = true ↔ 3 ≤ p.left.failRun ∨ (condition .encL s = true ∧ p.left.goodRun < 8)) ∧
      (condition .encR t = true ↔ 3 ≤ p.right.failRun ∨ (condition .encR s = true ∧ p.right.goodRun < 8)) ∧
      (3 ≤ p.left.failRun → condition .encL s = false → hasFault .encL t.modeCtl.latched = true) ∧
      (3 ≤ p.right.failRun → condition .encR s = false → hasFault .encR t.modeCtl.latched = true) ∧
      (t.position.left.failRun = p.left.failRun ∧ t.position.right.failRun = p.right.failRun) ∧
      t.position.left.goodRun = (if 8 ≤ p.left.goodRun ∧ condition .encL s = true then 0 else p.left.goodRun) ∧
      t.position.right.goodRun = (if 8 ≤ p.right.goodRun ∧ condition .encR s = true then 0 else p.right.goodRun) ∧
      (∀ risen : List FaultKind,
        risen =
          (if 3 ≤ p.left.failRun then [.encL] else []) ++ (if 3 ≤ p.right.failRun then [.encR] else []) ++
            (if (t.position.upper = true ∧ t.position.opening + 200 < img.params.openMax) ∨
                (t.position.lower = true ∧ 200 < t.position.opening) then [.travel] else []) →
        s.modeCtl.active &&& s.modeCtl.latched = s.modeCtl.active → KindsRaised risen b t) ∧
      Reported b.line t.line ∧
      t = { b with
            position := t.position, modeCtl := t.modeCtl, grant := t.grant, drive := t.drive, plan := t.plan,
            line := t.line }

/-- An accepted image holds a nondecreasing table of 17 points of at most 12000. The side opening read from such a table is that of R6: it
lies between the two points around the count, reads a point exactly on a segment boundary and throughout a flat segment, falls short of
T[16] at the largest count where T[16] exceeds T[15], and lies between T[0] and T[16]. -/
def Obligations.SideOpeningLiesInSegment : Prop :=
  (∀ (strap : Nat) (bytes : List Byte) (img : Image), checkedImage strap bytes = some img →
    img.geometry.length = 17 ∧ nondecreasing img.geometry = true ∧ ∀ x ∈ img.geometry, x ≤ 12000) ∧
  (∀ (t : List Nat) (c : Nat), t.length = 17 → nondecreasing t = true → c ≤ 65535 →
    interpolate t c =
      t.getD (c / 4096) 0 + (t.getD (c / 4096 + 1) 0 - t.getD (c / 4096) 0) * (c % 4096) / 4096 ∧
    t.getD (c / 4096) 0 ≤ interpolate t c ∧ interpolate t c ≤ t.getD (c / 4096 + 1) 0 ∧
    (c % 4096 = 0 → interpolate t c = t.getD (c / 4096) 0) ∧
    (t.getD (c / 4096 + 1) 0 = t.getD (c / 4096) 0 → interpolate t c = t.getD (c / 4096) 0) ∧
    (t.getD 15 0 < t.getD 16 0 → interpolate t 65535 < t.getD 16 0) ∧
    t.getD 0 0 ≤ interpolate t c ∧ interpolate t c ≤ t.getD 16 0)

/-! ### Fault conditions -/

/-- A stop-class condition that becomes active takes a station in AUTO, LOCAL, MAINT or STORM to FAULT: ENC_L and ENC_R stay active;
VALVE_L, VALVE_R, STALL and PUMP, which describe a move, leave the active set at the same transition and stay latched. PUMP becomes active
at the control tick at which the pump timer has reached PUMP_WAIT, with the pump not ready and the claim neither withdrawn, yielded nor at
its end; STALL at the one at which STALL_TIME has elapsed with the base command formed there hard and the gate not moved, whatever the
readbacks sampled there (free values, log 37), so for mismatch runs below 4. An event of a count judges the count as it stands (log 4), and
PUMP_WAIT and STALL are one unit's evaluation at that tick, to which the time first runs on: the model's choices (logs 1 and 26). -/
def Obligations.StopClassFaultsTakeStationToFault : Prop :=
  ∀ (s : State) (img : Image), Serving s img → canFault s.modeCtl.mode = true → hasStopClass s.modeCtl.latched = false →
    s.modeCtl.active &&& s.modeCtl.latched = s.modeCtl.active →
    (∀ side, 3 ≤ (encoderOf side s.position).failRun →
      ∃ t, exec (.encFault side) s = .next t ∧ StandsInFault t ∧ FaultFrame s t ∧
        t.modeCtl.latched = addFault (encoderKind side) s.modeCtl.latched ∧ condition (encoderKind side) t = true) ∧
    (∀ side, 5 ≤ mismatchOf side s.drive →
      ∃ t, exec (.valveMismatch side) s = .next t ∧ StandsInFault t ∧ FaultFrame s t ∧
        t.modeCtl.latched = addFault (valveKind side) s.modeCtl.latched ∧ condition (valveKind side) t = false) ∧
    (∀ age m b, s.grant.pumpTimer = some age →
      (s.grant.moveState = .warn ∧ s.target.offTarget = true ∧
          (∃ w, s.grant.warnTimer = some w ∧ s.grant.warnLead ≤ w) ∧
          (s.grant.moveKind = .bypass ∨ (admission img s = .throughGrant ∧ yieldCount s < img.params.moveLimit)) ∨
        s.grant.moveState = .moving ∧ (s.target.offTarget = true ∨ s.drive.setpoint ≠ s.target.effective * 1000)) →
      m = max (s.clocks.grantAhead + 60) (60 * ((s.clocks.tick + (img.params.pumpWait * 1000 - age) + 59) / 60)) →
      b = elapse (m - s.clocks.tick) s →
      ∃ t, exec .pumpWait s = .next t ∧ StandsInFault t ∧
        FaultFrame { b with clocks := { b.clocks with grantAhead := m } } t ∧
        t.modeCtl.latched = addFault .pump s.modeCtl.latched ∧ condition .pump t = false) ∧
    (∀ w m b base, s.grant.moveState = .moving → s.drive.stall = some w →
      base =
        baseCommand img.params.kp
          (controlError (ramp s.drive.setpoint (s.target.effective * 1000) (speedOf img s.target.speed)) s.position.opening) →
      300 ≤ base.natAbs → ((s.position.opening : Int) - w.startOpening).natAbs < 5 →
      s.drive.runL < 4 → s.drive.runR < 4 →
      s.position.skew.natAbs ≤ img.params.skewTrip →
      m = max (s.clocks.driveAhead + 60) (60 * ((s.clocks.tick + (img.params.stallTime * 1000 - w.age) + 59) / 60)) →
      b = elapse (m - s.clocks.tick) s →
      ∃ t, exec .stall s = .next t ∧ StandsInFault t ∧
        FaultFrame { b with clocks := { b.clocks with driveAhead := m, freeSamples := s.clocks.freeSamples + 2 } } t ∧
        t.modeCtl.latched = addFault .stall s.modeCtl.latched ∧ condition .stall t = false ∧ t.drive.stall = none)

/-- The degrade-class conditions LEVEL_UP and LEVEL_DN are latched without a change of the mode. The event judges the rail run as it
stands, by the model's choice (log 4). -/
def Obligations.LevelFaultIsLatchedOnly : Prop :=
  ∀ (channel : ChannelId) (s : State) (img : Image), acceptedImage s = some img → 3 ≤ (channelOf channel s.level).railRun →
    condition (channelKind channel) s = false →
    ∃ t, exec (.levelFault channel) s = .next t ∧
      t = { s with modeCtl := raisedModes (channelKind channel) s, line := t.line } ∧ Reported s.line t.line

/-- A good run that has reached 8 makes the condition of its encoder side, or of its level channel, inactive and returns to 0; the kind
stays latched. The events judge the good run as it stands, by the model's choice (log 4). -/
def Obligations.EighthGoodReadRecovers : Prop :=
  ∀ (s : State) (img : Image), acceptedImage s = some img →
    (∀ side, 8 ≤ (encoderOf side s.position).goodRun → condition (encoderKind side) s = true →
      ∃ t, exec (.encRecovery side) s = .next t ∧
        t = { s with
              position := setEncoder side { encoderOf side s.position with goodRun := 0 } s.position
              modeCtl := { s.modeCtl with active := dropFault (encoderKind side) s.modeCtl.active }
              line := t.line } ∧
        Reported s.line t.line) ∧
    (∀ channel, 8 ≤ (channelOf channel s.level).goodRun → condition (channelKind channel) s = true →
      ∃ t, exec (.levelRecovery channel) s = .next t ∧
        t = { s with
              level := setChannel channel { channelOf channel s.level with goodRun := 0 } s.level
              modeCtl := { s.modeCtl with active := dropFault (channelKind channel) s.modeCtl.active }
              line := t.line } ∧
        Reported s.line t.line)

/-! ### River levels and tide -/

/-- A level sample takes a good code of each channel into its ring, which holds the last 8, and counts a rail code; the filtered level is
the floor of the ring's mean; the levels used are selected, from the station's own or from those its FRESH peers measure themselves, and
the head formed. A third rail code in a row makes the channel's condition active and latched, an eighth good one inactive. Without head the
station is blind and the candidate count 0; with head an UNDECIDED window takes its first decision, and else the sample counts toward a
toggle or starts the count again; at TIDE_QUALIFY the window toggles in a DETECTED event. The level condition of the storm demand is judged
last, and a demand takes an AUTO or LOCAL station into STORM with its plan saved: a claim in WANT is dropped there, one in WARN warns
afresh with WARN_LEAD as a bypass claim, and a gate that moves goes on as one. The time first runs on to the moment of the event, which is
the model's choice (log 1). -/
def Obligations.LevelSampleFormsHead : Prop :=
  ∀ (up dn : Half) (s b : State) (img : Image), Serving s img → b = elapse (1000 - s.clocks.sample) s →
    ∃ t, exec (.levelSample up dn) s = .next t ∧
      (∀ channel,
        peerLevels channel s =
          (List.range 16).filterMap (fun n =>
            match contentAt n s with
            | none => none
            | some r =>
              if r.freshness = .fresh then
                (match channel with
                  | .upstream => if r.upOwn then r.upLevel else none
                  | .downstream => if r.dnOwn then r.dnLevel else none)
              else none)) ∧
      (∀ channel code rail good, (channel = .upstream ∧ code = up ∨ channel = .downstream ∧ code = dn) →
        rail = (channelOf channel t.level).railRun →
        good =
          (if code.toNat ≤ 16 ∨ 65519 ≤ code.toNat ∨ condition (channelKind channel) s = false then 0
           else min 8 ((channelOf channel s.level).goodRun + 1)) →
        ((channelOf channel t.level).ring, rail) =
          (if code.toNat ≤ 16 ∨ 65519 ≤ code.toNat then
            ((channelOf channel s.level).ring, min 255 ((channelOf channel s.level).railRun + 1))
          else
            (((channelOf channel s.level).ring ++
                [img.params.lvlOffset + ((code.toNat * img.params.lvlSpan / 65536 : Nat) : Int)]).drop
                ((channelOf channel s.level).ring.length - 7), 0)) ∧
        (channelOf channel t.level).filtered =
          (if (channelOf channel t.level).ring = [] then none
           else some ((channelOf channel t.level).ring.sum.fdiv (channelOf channel t.level).ring.length)) ∧
        (condition (channelKind channel) t = true ↔ 3 ≤ rail ∨ (condition (channelKind channel) s = true ∧ good < 8)) ∧
        (3 ≤ rail → condition (channelKind channel) s = false → hasFault (channelKind channel) t.modeCtl.latched = true) ∧
        (channelOf channel t.level).goodRun = (if good < 8 then good else 0) ∧
        ((channelOf channel t.level).used, (channelOf channel t.level).source) =
          (match (channelOf channel t.level).filtered, condition (channelKind channel) t with
            | some x, false => (some x, .own)
            | _, _ =>
              match median (peerLevels channel s) with
              | some x => (some x, .peer)
              | none => (none, .absent))) ∧
      t.level.head =
        (match t.level.up.used, t.level.dn.used with
          | some u, some d => some (u - d)
          | _, _ => none) ∧
      t.tide.blind = t.level.head.isNone ∧
      (t.level.head = none → t.tide = { s.tide with candidate := 0, blind := true } ∧ Reported b.line t.line) ∧
      (∀ h count, t.level.head = some h →
        (s.tide.window = .undecided →
          t.tide =
            { s.tide with
              window := if img.params.headOpen ≤ h then .opened else .closed, candidate := 0, blind := false } ∧
          Reported b.line t.line) ∧
        (s.tide.window ≠ .undecided →
          count =
            (if s.tide.window = .closed ∧ img.params.headOpen ≤ h ∨ s.tide.window = .opened ∧ h ≤ img.params.headClose then
              s.tide.candidate + 1
             else 0) →
          (count < img.params.tideQualify →
            t.tide = { s.tide with candidate := count, blind := false } ∧ Reported b.line t.line) ∧
          (img.params.tideQualify ≤ count →
            ∀ k, (s.tide.window = .closed ∧ k = .opens ∨ s.tide.window = .opened ∧ k = .closes) →
            t.tide =
              { s.tide with
                window := windowOf k, candidate := 0, blind := false
                latch := s.tide.latch || ((s.plan.state == .running || s.plan.state == .held) && s.tide.expected == k) } ∧
            Reported
              { b.line with
                tideSlot := some
                  { kind := k, origin := .detected, day := b.order.clockDay, ms := b.order.clockMs, head := some h }
                tideReplaced := sendingTide s || s.line.tideReplaced } t.line))) ∧
      (t.modeCtl.condLevel = true ↔ ∃ x, t.level.dn.used = some x ∧ img.params.stormLevel ≤ x) ∧
      t.modeCtl.condOrder = s.modeCtl.condOrder ∧ t.modeCtl.condInput = s.modeCtl.condInput ∧
      t.modeCtl.mode =
        (if stormDemand t = true ∧ (s.modeCtl.mode = .auto ∨ s.modeCtl.mode = .loc) then .storm else s.modeCtl.mode) ∧
      t.modeCtl.stormClear =
        (if stormDemand t then none
         else if stormDemand s = true ∧ s.modeCtl.mode = .storm then some 0 else b.modeCtl.stormClear) ∧
      (t.modeCtl.mode = s.modeCtl.mode →
        t.modeCtl.save = s.modeCtl.save ∧ t.grant = b.grant ∧ t.plan = s.plan ∧ t.target = s.target ∧ t.drive = b.drive) ∧
      (t.modeCtl.mode ≠ s.modeCtl.mode → s.modeCtl.save = none →
        t.modeCtl.save = some
          { state := s.plan.state, number := s.plan.number, interp := s.plan.interp, queue := s.plan.queue
            current := s.plan.current, phase := s.plan.phase, dwell := s.plan.dwell, expected := s.tide.expected } ∧
        t.plan.state = (if s.modeCtl.mode = .auto ∧ s.plan.state = .running then .held else s.plan.state)) ∧
      (t.modeCtl.mode ≠ s.modeCtl.mode → ClaimBypassed (img.params.warnLead * 1000) b t) ∧
      t = { b with
            level := t.level, tide := t.tide, target := t.target, grant := t.grant, drive := t.drive, plan := t.plan
            modeCtl := t.modeCtl, line := t.line, clocks := { b.clocks with sample := b.clocks.sample - 1000 } }

/-- The median does not depend on the order of the values, and is absent with no value. With an odd count it is the middle one of the
values in ascending order; with an even count it is the floor of the mean of the two middle ones. -/
def Obligations.MedianIsMiddleValue : Prop :=
  (∀ xs ys : List Int, xs.Perm ys → median xs = median ys) ∧ (∀ xs : List Int, median xs = none ↔ xs = []) ∧
    (∀ (xs : List Int) (m : Int), xs.length % 2 = 1 → median xs = some m →
      m ∈ xs ∧ 2 * (xs.filter (fun x => x < m)).length ≤ xs.length ∧ 2 * (xs.filter (fun x => m < x)).length ≤ xs.length) ∧
    (∀ (xs ys : List Int) (m : Int), xs.Perm ys → ys.Pairwise (· ≤ ·) → median xs = some m →
      (∀ n, ys.length = 2 * n + 1 → ys[n]? = some m) ∧
        (∀ n a b, ys.length = 2 * n + 2 → ys[n]? = some a → ys[n + 1]? = some b → 2 * m ≤ a + b ∧ a + b ≤ 2 * m + 1))

/-- The root that the orifice relation takes is the largest integer whose square does not exceed the radicand. -/
def Obligations.IntegerRootIsLargest : Prop :=
  ∀ n : Nat, n < 2 ^ 64 → isqrt n * isqrt n ≤ n ∧ n < (isqrt n + 1) * (isqrt n + 1)

/-- A candidate counter that has reached TIDE_QUALIFY toggles the window in a DETECTED event with the head of the sample: the record waits
in the TIDE slot, and the latch is set when a plan RUNNING or HELD expects the kind. The event judges the counter as it stands, by the
model's choice (log 4). -/
def Obligations.QualifiedTideTogglesWindow : Prop :=
  ∀ (s : State) (img : Image) (k : TideKind), acceptedImage s = some img → img.params.tideQualify ≤ s.tide.candidate →
    (s.tide.window = .closed ∧ k = .opens ∨ s.tide.window = .opened ∧ k = .closes) →
    ∃ t, exec .tideQualified s = .next t ∧
      t = { s with
            tide :=
              { s.tide with
                window := windowOf k, candidate := 0
                latch := s.tide.latch || ((s.plan.state == .running || s.plan.state == .held) && s.tide.expected == k) }
            line := t.line } ∧
      Reported
        { s.line with
          tideSlot := some { kind := k, origin := .detected, day := s.order.clockDay, ms := s.order.clockMs, head := s.level.head }
          tideReplaced := sendingTide s || s.line.tideReplaced } t.line

/-- A TIDE frame from a FRESH row is taken by a blind station alone: it sets an UNDECIDED window without an event, toggles a window of the
other kind in a PEER event without head, and is ignored otherwise. -/
def Obligations.BlindStationTakesPeerTide : Prop :=
  ∀ (source : Byte) (payload : List Byte) (r : TideRecord) (s : State), receiving s = true → source.toNat ≤ 23 →
    tideOfPayload payload = some r →
    ((s.tide.blind = false ∨ rowFresh source.toNat s = false ∨ s.tide.window = windowOf r.kind) →
      ∃ t, exec (.tideFrame source payload) s = .next t ∧ OnlyHeard s t) ∧
    (s.tide.blind = true → rowFresh source.toNat s = true → s.tide.window = .undecided →
      ∃ t, exec (.tideFrame source payload) s = .next t ∧
        t = { s with
              tide := { s.tide with window := windowOf r.kind, candidate := 0 }
              modeCtl := heardModes s.modeCtl, line := t.line } ∧
        Reported (heardLine s.line) t.line) ∧
    (s.tide.blind = true → rowFresh source.toNat s = true → s.tide.window ≠ .undecided → s.tide.window ≠ windowOf r.kind →
      ∃ t, exec (.tideFrame source payload) s = .next t ∧
        t = { s with
              tide := { s.tide with window := windowOf r.kind, candidate := 0, latch := latchAtEvent r.kind s }
              modeCtl := heardModes s.modeCtl, line := t.line } ∧
        Reported
          { heardLine s.line with
            tideSlot := some { kind := r.kind, origin := .peer, day := s.order.clockDay, ms := s.order.clockMs, head := none }
            tideReplaced := s.line.tideReplaced } t.line)

/-! ### Peer Table -/

/-- An ageing step counts the age of every filled row and sets its freshness from its age and report period; EMPTY rows stay as they are.
The time first runs on to the moment of the event, which is the model's choice (log 1). -/
def Obligations.AgeingStepSetsFreshness : Prop :=
  ∀ (s b : State) (img : Image), Serving s img → b = elapse (10 - s.clocks.age) s →
    ∃ t, exec .peerAgeing s = .next t ∧ t.peers.rows.length = s.peers.rows.length ∧
      (∀ n age : Nat, s.peers.rows[n]? = some { age := age, content := none } →
        t.peers.rows[n]? = some { age := age, content := none }) ∧
      (∀ (n age : Nat) (r : PeerRow), s.peers.rows[n]? = some { age := age, content := some r } →
        t.peers.rows[n]? = some
          { age := min 65535 (age + 1)
            content := some
              { r with
                freshness :=
                  if min 65535 (age + 1) * 10 < 3 * r.period then .fresh
                  else if min 65535 (age + 1) * 10 < 10 * r.period then .stale else .lost } }) ∧
      t = { b with
            peers := { b.peers with rows := t.peers.rows }
            clocks := { b.clocks with age := b.clocks.age - 10 }
            line := t.line } ∧
      Reported b.line t.line

/-- A STATE frame from a configured station refreshes its row whole: FRESH at age 0, the report period clamped to 200..2000. With an echoed
number of 0 nothing else happens but the arrival. From a station absent from the layout or from a console it is dropped and counted,
touches no row and hands no order on; after a rejected image every one is discarded without a count. The other items are stored as sent
(log 23, deduced). -/
def Obligations.StateFrameRefreshesRow : Prop :=
  ∀ (source : Byte) (payload : List Byte) (f : StateFrame) (s : State), receiving s = true → source.toNat ≤ 23 →
    stateOfPayload payload = some f →
    (acceptedImage s = none → ∃ t, exec (.stateFrame source payload) s = .next t ∧ OnlyHeard s t) ∧
    (∀ img, acceptedImage s = some img → source.toNat ≠ s.loader.strap →
      (15 < source.toNat ∨ (layoutAt img.layout source.toNat).present = false →
        ∃ t, exec (.stateFrame source payload) s = .next t ∧ HeardAndCounted s t) ∧
      (source.toNat ≤ 15 → (layoutAt img.layout source.toNat).present = true → f.orderNumber = 0 →
        ∃ t, exec (.stateFrame source payload) s = .next t ∧
          t = { s with
                peers :=
                  { s.peers with
                    rows := s.peers.rows.set source.toNat
                      { age := 0
                        content := some
                          { freshness := .fresh
                            period :=
                              if f.reportPeriod < 200 then 200 else if 2000 < f.reportPeriod then 2000 else f.reportPeriod
                            moveState := f.moveState, ticket := f.ticket, available := f.available, isolated := f.isolated
                            opening := f.opening, upLevel := f.upLevel, upOwn := f.upOwn, dnLevel := f.dnLevel
                            dnOwn := f.dnOwn, keyNumber := f.orderNumber, keyOrigin := f.orderOrigin } } }
                modeCtl := heardModes s.modeCtl, line := t.line } ∧
          Reported (heardLine s.line) t.line))

/-- A STATE frame that bears the station's own number makes DUPLICATE active and takes the station to FAULT; no row is touched, no order
adopted. -/
def Obligations.OwnNumberInStateFrameStops : Prop :=
  ∀ (source : Byte) (payload : List Byte) (f : StateFrame) (s : State) (img : Image), acceptedImage s = some img →
    receiving s = true → source.toNat ≤ 23 → source.toNat = s.loader.strap → stateOfPayload payload = some f →
    canFault s.modeCtl.mode = true → hasStopClass s.modeCtl.latched = false →
    s.modeCtl.active &&& s.modeCtl.latched = s.modeCtl.active →
    ∃ t, exec (.stateFrame source payload) s = .next t ∧ StandsInFault t ∧ condition .duplicate t = true ∧
      t.modeCtl.latched = addFault .duplicate s.modeCtl.latched ∧
      FaultFrame { s with peers := { s.peers with duplicateTimer := some 0 } } t

/-- The duplicate timer, at 10 × REPORT_PERIOD, makes DUPLICATE inactive and stops; the line-silent timer, at 10 × REPORT_PERIOD with
another station in the layout, makes ALONE active and latched without a change of the mode. The time first runs on to the moment of the
event, which is the model's choice (log 1). -/
def Obligations.SilenceTimersActAtTenPeriods : Prop :=
  ∀ (s b : State) (img : Image), Serving s img →
    (∀ age, s.peers.duplicateTimer = some age → b = elapse (10 * img.params.reportPeriod - age) s →
      ∃ t, exec .duplicateClear s = .next t ∧
        t = { b with
              peers := { b.peers with duplicateTimer := none }
              modeCtl := { b.modeCtl with active := dropFault .duplicate b.modeCtl.active }
              line := t.line } ∧
        Reported b.line t.line) ∧
    (hasPeers img s = true → condition .alone s = false → b = elapse (10 * img.params.reportPeriod - s.line.lineSilent) s →
      ∃ t, exec .alone s = .next t ∧ t = { b with modeCtl := raisedModes .alone b, line := t.line } ∧
        Reported b.line t.line)

/-- A frame found at fault counts once in the receive error counter and is delivered to no block, and the receiver takes no other frame
before the next idle, which a cut-off frame shows at once. A dominant stop bit leaves a dominant run that has just begun, and the other
faults leave none. That the receiver's idle belongs to the state (log 14), how the run stands after a frame (log 15), and that a station
which its line does not follow is a receiver (log 42), are the model's choices. -/
def Obligations.FaultyFrameIsCountedOnce : Prop :=
  ∀ (what : Reception) (s : State), receiving s = true → (∀ bytes, what = .arrived bytes → arrivalFault bytes = true) →
    ∃ t, exec (.frameDropped what) s = .next t ∧ t.line.errors = min 255 (s.line.errors + 1) ∧
      t.line.lineSilent = s.line.lineSilent ∧
      t.line.awaitIdle = (what != .cutOff) ∧ t.line.idle = (what == .cutOff) ∧
      t = { s with line := t.line } ∧
      Reported
        { s.line with
          errors := t.line.errors, idle := t.line.idle, awaitIdle := t.line.awaitIdle
          dominantRun := if what = .stopBitDominant then some 0 else none } t.line

/-! ### Orders -/

/-- A newer order from a console of authority 2 replaces the adopted order, brought into range; a valid weir time sets the clock; the STORM
flag is the order's storm condition; and the order goes out in the next STATE. Outside AUTO the plan action becomes pending. In AUTO it is
taken at once: without a plan to follow a live plan becomes IDLE, the plan it holds goes on, and any other is started afresh, with PLAN_BAD
unlatched, OPEN expected and the latch empty; HALT stops the claim. A storm demand takes AUTO and LOCAL to STORM after that: the save is
taken of the plan as the action has left it, a RUNNING plan is held, and a claim that HALT does not stop is treated as every entry into
STORM does. The order of what one adoption does, the plan action before the storm condition among it, is deduced (log 12); what the rules
do not name keeps its value (log 22, deduced). -/
def Obligations.NewerOrderIsAdopted : Prop :=
  ∀ (source : Byte) (p : List Byte) (s b : State) (img : Image) (k : OrderKind) (o : Order), acceptedImage s = some img →
    receiving s = true → p.length = 17 → 16 ≤ source.toNat → source.toNat ≤ 23 → orderKindOfCode (byteAt p 4) = some k →
    1 ≤ word p 0 → 2 ≤ authorityOf img source.toNat →
    (∀ h, s.order.adopted = some h → h.number < word p 0 ∨ (h.number = word p 0 ∧ source.toNat < h.origin)) →
    o =
      { number := word p 0, origin := source.toNat, kind := k
        value := (match k with
          | .discharge => min 20000 (half p 5)
          | .opening => min img.params.openMax (half p 5)
          | .close => 0)
        plan := if byteAt p 7 ≤ 15 then some (byteAt p 7) else none
        mask := BitVec.ofNat 16 (half p 8)
        halt := (byteAt p 10).testBit 0, storm := (byteAt p 10).testBit 1, tideLock := (byteAt p 10).testBit 2
        restartPlan := (byteAt p 10).testBit 3 } →
    b = { s with order := { s.order with adopted := some o } } →
    ∃ t, exec (.orderFrame source p) s = .next t ∧ t.order.adopted = some o ∧
      (t.order.clockDay, t.order.clockMs) =
        (if word p 13 < 86400000 then (half p 11, word p 13) else (s.order.clockDay, s.order.clockMs)) ∧
      t.order.lastCommand = s.order.lastCommand ∧
      AdoptionActs img o b t ∧
      MarkedOrReported t ∧
      Reported (heardLine s.line) t.line ∧
      t = { s with
            order := t.order, tide := t.tide, target := t.target, grant := t.grant, drive := t.drive, plan := t.plan
            modeCtl := t.modeCtl, line := t.line }

/-- An ORDER frame that is not adopted changes nothing but what every arrival does: from a station number or with a kind that is none it is
counted; with number 0, from a console of authority below 2, not newer, or after a rejected image it is ignored. -/
def Obligations.OtherOrdersChangeNothing : Prop :=
  ∀ (source : Byte) (p : List Byte) (s : State), receiving s = true → p.length = 17 → source.toNat ≤ 23 →
    (acceptedImage s = none → ∃ t, exec (.orderFrame source p) s = .next t ∧ OnlyHeard s t) ∧
    (∀ img, acceptedImage s = some img →
      (source.toNat ≤ 15 ∨ orderKindOfCode (byteAt p 4) = none →
        ∃ t, exec (.orderFrame source p) s = .next t ∧ HeardAndCounted s t) ∧
      (16 ≤ source.toNat → orderKindOfCode (byteAt p 4) ≠ none →
        (word p 0 = 0 ∨ authorityOf img source.toNat < 2 ∨
          ∃ h, s.order.adopted = some h ∧ (word p 0 < h.number ∨ (word p 0 = h.number ∧ h.origin ≤ source.toNat))) →
        ∃ t, exec (.orderFrame source p) s = .next t ∧ OnlyHeard s t))

/-- The order that a peer's STATE echoes is adopted when it is newer and its origin has authority 2; the row is refreshed at the same
arrival, and the weir clock runs on as it was. All that the adoption of a frame's order does, this one does: the plan action is taken in
AUTO and else pending, HALT stops the claim in AUTO, and a storm demand takes AUTO and LOCAL to STORM after that. An echo with a kind that
is none, or with an origin that is no console, is counted; one from a console of authority below 2, or not newer, is ignored: of either the
row is refreshed all the same. The order of what one adoption does is deduced (log 12). -/
def Obligations.EchoedOrderIsAdopted : Prop :=
  ∀ (source : Byte) (payload : List Byte) (f : StateFrame) (s b : State) (img : Image),
    acceptedImage s = some img → receiving s = true → source.toNat ≤ 15 → rowConfigured img source.toNat s = true →
    stateOfPayload payload = some f → 1 ≤ f.orderNumber →
    b = { s with peers := { s.peers with rows := s.peers.rows.set source.toNat { age := 0, content := some (rowOf f) } } } →
    (orderKindOfCode f.orderKind = none ∨ f.orderOrigin < 16 ∨ 23 < f.orderOrigin →
      ∃ t, exec (.stateFrame source payload) s = .next t ∧ HeardAndCounted b t) ∧
    (∀ k, orderKindOfCode f.orderKind = some k → 16 ≤ f.orderOrigin → f.orderOrigin ≤ 23 →
      (authorityOf img f.orderOrigin < 2 ∨
          (∃ h, s.order.adopted = some h ∧
            (f.orderNumber < h.number ∨ (f.orderNumber = h.number ∧ h.origin ≤ f.orderOrigin))) →
        ∃ t, exec (.stateFrame source payload) s = .next t ∧ OnlyHeard b t) ∧
      (2 ≤ authorityOf img f.orderOrigin →
        (∀ h, s.order.adopted = some h →
          h.number < f.orderNumber ∨ (h.number = f.orderNumber ∧ f.orderOrigin < h.origin)) →
        ∃ t, exec (.stateFrame source payload) s = .next t ∧ t.order.adopted = some (inRange img k (echoOf f)) ∧
          t.order.clockDay = s.order.clockDay ∧ t.order.clockMs = s.order.clockMs ∧
          t.order.lastCommand = s.order.lastCommand ∧
          t.peers = b.peers ∧ t.modeCtl.condOrder = f.storm ∧
          (∀ o, o = inRange img k (echoOf f) → AdoptionActs img o { b with order := { b.order with adopted := some o } } t) ∧
          MarkedOrReported t ∧
          Reported (heardLine s.line) t.line ∧
          t = { b with
                order := t.order, tide := t.tide, target := t.target, grant := t.grant, drive := t.drive
                plan := t.plan, modeCtl := t.modeCtl, line := t.line }))

/-- Two stations that held the same order and have since been offered the same orders hold orders of the same key, whatever order they
heard them in and however else they differ. -/
def Obligations.SameOrdersGiveSameKey : Prop :=
  ∀ (img : Image) (xs ys : List (OrderKind × OfferedOrder)) (s r : State), acceptedImage s = some img → acceptedImage r = some img →
    s.order.adopted = r.order.adopted → xs.Perm ys →
    (xs.foldl (fun t x => offerOrder img x.1 x.2 none t) s).order.adopted.map (fun o => (o.number, o.origin)) =
      (ys.foldl (fun t x => offerOrder img x.1 x.2 none t) r).order.adopted.map (fun o => (o.number, o.origin))

/-- HALT that comes into force in AUTO stops the claim at the adoption: STILL with ticket 0, the outputs off, the commands 0, the setpoint
of a moving gate at its opening; LIMITED stays as it was. The order of what one adoption does is deduced (log 12). -/
def Obligations.HaltStopsAtAdoption : Prop :=
  ∀ (source : Byte) (p : List Byte) (s : State) (img : Image), acceptedImage s = some img → receiving s = true →
    p.length = 17 → 16 ≤ source.toNat → source.toNat ≤ 23 → orderKindOfCode (byteAt p 4) ≠ none → 1 ≤ word p 0 →
    2 ≤ authorityOf img source.toNat →
    (∀ h, s.order.adopted = some h → h.number < word p 0 ∨ (h.number = word p 0 ∧ source.toNat < h.origin)) →
    s.modeCtl.mode = .auto → (byteAt p 10).testBit 0 = true → (BitVec.ofNat 16 (half p 8)).getLsbD s.loader.strap = true →
    s.grant.moveState ≠ .still →
    ∃ t, exec (.orderFrame source p) s = .next t ∧ haltInForce t = true ∧ t.grant.moveState = .still ∧
      t.grant.moveKind = .noClaim ∧ t.grant.ticket = 0 ∧ t.grant.horn = false ∧ t.grant.pumpRun = false ∧
      t.grant.driveEnable = false ∧ t.target.limited = s.target.limited ∧
      (s.grant.moveState = .moving →
        t.drive.setpoint = s.position.opening * 1000 ∧ t.drive.cmdL = 0 ∧ t.drive.cmdR = 0 ∧ t.drive.stall = none)

/-! ### Commands -/

/-- Each of the seven commands: from a station number it is dropped and counted; with another station's number it is ignored; from a
console below the authority it requires, and after a rejected image, it is answered REFUSED_AUTHORITY and not carried out. -/
def Obligations.CommandsAreCheckedFirst : Prop :=
  ∀ (i : Instr) (c : CommandFields) (s : State), commandOf i = some c → receiving s = true → c.source.toNat ≤ 23 →
    (c.source.toNat ≤ 15 → ∃ t, exec i s = .next t ∧ HeardAndCounted s t) ∧
    (16 ≤ c.source.toNat → c.target.toNat ≠ 255 → c.target.toNat ≠ s.loader.strap →
      ∃ t, exec i s = .next t ∧ OnlyHeard s t) ∧
    (16 ≤ c.source.toNat → c.target.toNat = 255 ∨ c.target.toNat = s.loader.strap →
      (acceptedImage s = none ∨ ∃ img, acceptedImage s = some img ∧ authorityOf img c.source.toNat < c.level) →
      ∃ t, exec i s = .next t ∧ Answered c.source c.tag c.code .refusedAuthority t ∧
        t = { s with
              order := answeredOrder s.order c.source c.tag c.code .refusedAuthority
              modeCtl := heardModes s.modeCtl, line := t.line } ∧
        Reported (heardLine s.line) t.line)

/-- RESUME in AUTO with the plan HELD is answered DONE and makes the plan RUNNING at its resume point with the queue refilled: at CURRENT
the step is aimed again; at NEXT the held step ends, and unless HALT is in force the next is taken, or with none left the plan is ENDED. In
any other case it is answered REFUSED_STATE and changes nothing. A resumed step waits for a new evaluation of the Target Unit (log 20,
deduced); what R141 does not name keeps its value (log 22, deduced). -/
def Obligations.ResumeContinuesHeldPlan : Prop :=
  ∀ (source target argument tag : Byte) (s : State) (img : Image), CommandReaches s source target →
    acceptedImage s = some img → 1 ≤ authorityOf img source.toNat →
    (s.plan.state ≠ .held ∨ s.modeCtl.mode ≠ .auto →
      ∃ t, exec (.resume source target argument tag) s = .next t ∧ Answered source tag 1 .refusedState t ∧
        t = { s with
              order := answeredOrder s.order source tag 1 .refusedState, modeCtl := heardModes s.modeCtl, line := t.line } ∧
        Reported (heardLine s.line) t.line) ∧
    (s.plan.state = .held → s.modeCtl.mode = .auto →
      (∀ p, s.plan.resume = some .current →
        refillLoop img refillFuel { s.plan with state := .running, resume := none, aimJudged := false } = some p →
        ∃ t, exec (.resume source target argument tag) s = .next t ∧ Answered source tag 1 .done t ∧
          t = { s with
                plan := p, order := answeredOrder s.order source tag 1 .done, modeCtl := heardModes s.modeCtl
                line := t.line } ∧
          Reported (heardLine s.line) t.line) ∧
      (∀ p, s.plan.resume = some .next → haltInForce s = true →
        refillLoop img refillFuel { s.plan with state := .running, resume := none, current := none } = some p →
        ∃ t, exec (.resume source target argument tag) s = .next t ∧ Answered source tag 1 .done t ∧
          t = { s with
                plan := p, order := answeredOrder s.order source tag 1 .done, modeCtl := heardModes s.modeCtl
                line := t.line } ∧
          Reported (heardLine s.line) t.line) ∧
      (∀ p q i rest, s.plan.resume = some .next → haltInForce s = false →
        refillLoop img refillFuel { s.plan with state := .running, resume := none, current := none } = some p →
        p.queue = i :: rest →
        refillLoop img refillFuel
          { p with
            queue := rest, current := some i, phase := .aim, dwell := (stepAt img i).dwell * 1000, aimJudged := false } =
            some q →
        ∃ t, exec (.resume source target argument tag) s = .next t ∧ Answered source tag 1 .done t ∧
          t = { s with
                plan := q, order := answeredOrder s.order source tag 1 .done, modeCtl := heardModes s.modeCtl
                target :=
                  { s.target with
                    stepStart := if s.position.established then .recorded s.position.opening else .pending }
                line := t.line } ∧
          Reported (heardLine s.line) t.line) ∧
      (∀ p, s.plan.resume = some .next → haltInForce s = false →
        refillLoop img refillFuel { s.plan with state := .running, resume := none, current := none } = some p →
        p.queue = [] → p.interp.ended = true →
        ∃ t, exec (.resume source target argument tag) s = .next t ∧ Answered source tag 1 .done t ∧
          t = { s with
                plan :=
                  { p with
                    state := .ended, interp := .cleared, queue := [], current := none, dwell := 0, finishAtHold := false
                    resume := none }
                order := answeredOrder s.order source tag 1 .done, modeCtl := heardModes s.modeCtl
                target := { s.target with stepStart := .absent }, line := t.line } ∧
          Reported (heardLine s.line) t.line))

/-- FINISH_AT_HOLD requires authority 1; while the plan is RUNNING it is answered DONE and the request is set; in any other plan state it
is answered REFUSED_STATE and the request is left as it was. TIDE_EVENT requires authority 1 and is answered with the result of R27. -/
def Obligations.FinishAtHoldSetsRequest : Prop :=
  ∀ (source target argument tag : Byte) (s : State) (img : Image), CommandReaches s source target →
    acceptedImage s = some img →
    (∃ t result, exec (.finishAtHold source target argument tag) s = .next t ∧ Answered source tag 2 result t ∧
      result =
        (if authorityOf img source.toNat < 1 then .refusedAuthority
         else if s.plan.state = .running then .done else .refusedState) ∧
      t = { s with
            plan := { s.plan with finishAtHold := if result = .done then true else s.plan.finishAtHold }
            order := answeredOrder s.order source tag 2 result, modeCtl := heardModes s.modeCtl, line := t.line } ∧
      Reported (heardLine s.line) t.line) ∧
    (∃ t, exec (.tideEvent source target argument tag) s = .next t ∧
      Answered source tag 3
        (if authorityOf img source.toNat < 1 then .refusedAuthority
         else if argument.toNat = 1 then (if s.tide.window = .opened then .refusedState else .done)
         else if argument.toNat = 2 then (if s.tide.window = .closed then .refusedState else .done)
         else .unknown) t)

/-- TIDE_EVENT with the kind OPEN (1) or CLOSE (2) toggles the window, or sets an UNDECIDED one, in a MANUAL event with the head of the
latest sample; it is refused when the window stands at that kind, and answered UNKNOWN with any other argument. -/
def Obligations.TideEventCommandMovesWindow : Prop :=
  ∀ (source target argument tag : Byte) (s : State) (img : Image), CommandReaches s source target →
    acceptedImage s = some img → 1 ≤ authorityOf img source.toNat →
    (argument.toNat ≠ 1 → argument.toNat ≠ 2 →
      ∃ t, exec (.tideEvent source target argument tag) s = .next t ∧ Answered source tag 3 .unknown t ∧
        t = { s with
              order := answeredOrder s.order source tag 3 .unknown, modeCtl := heardModes s.modeCtl, line := t.line } ∧
        Reported (heardLine s.line) t.line) ∧
    (∀ k, (argument.toNat = 1 ∧ k = .opens ∨ argument.toNat = 2 ∧ k = .closes) →
      (s.tide.window = windowOf k →
        ∃ t, exec (.tideEvent source target argument tag) s = .next t ∧ Answered source tag 3 .refusedState t ∧
          t = { s with
                order := answeredOrder s.order source tag 3 .refusedState, modeCtl := heardModes s.modeCtl
                line := t.line } ∧
          Reported (heardLine s.line) t.line) ∧
      (s.tide.window ≠ windowOf k →
        ∃ t, exec (.tideEvent source target argument tag) s = .next t ∧ Answered source tag 3 .done t ∧
          t = { s with
                tide := { s.tide with window := windowOf k, candidate := 0, latch := latchAtEvent k s }
                order := answeredOrder s.order source tag 3 .done, modeCtl := heardModes s.modeCtl, line := t.line } ∧
          Reported
            { heardLine s.line with
              tideSlot := some
                { kind := k, origin := .manual, day := s.order.clockDay, ms := s.order.clockMs, head := s.level.head }
              tideReplaced := s.line.tideReplaced } t.line))

/-- ABANDON requires authority 2: refused in STORM; outside it a RUNNING or HELD plan becomes IDLE with its queue, interpreter and step
cleared, and the deferred action is cleared; with no such plan a pending deferred action is cleared, and else it is refused. In FAULT a
plan in the storm save becomes IDLE with the live one. What the rules do not name, the phase among it, keeps its value (log 22, deduced). -/
def Obligations.AbandonEndsPlan : Prop :=
  ∀ (source target argument tag : Byte) (s : State) (img : Image), CommandReaches s source target →
    acceptedImage s = some img → 2 ≤ authorityOf img source.toNat →
    (s.modeCtl.mode = .storm ∨ (¬ PlanLive s.plan.state ∧ s.order.deferred = false) →
      ∃ t, exec (.abandon source target argument tag) s = .next t ∧ Answered source tag 4 .refusedState t ∧
        t = { s with
              order := answeredOrder s.order source tag 4 .refusedState, modeCtl := heardModes s.modeCtl, line := t.line } ∧
        Reported (heardLine s.line) t.line) ∧
    (s.modeCtl.mode ≠ .storm → ¬ PlanLive s.plan.state → s.order.deferred = true →
      ∃ t, exec (.abandon source target argument tag) s = .next t ∧ Answered source tag 4 .done t ∧
        t = { s with
              order := { answeredOrder s.order source tag 4 .done with deferred := false }
              modeCtl := heardModes s.modeCtl, line := t.line } ∧
        Reported (heardLine s.line) t.line) ∧
    (s.modeCtl.mode ≠ .storm → PlanLive s.plan.state →
      ∃ t, exec (.abandon source target argument tag) s = .next t ∧ Answered source tag 4 .done t ∧
        t = { s with
              plan :=
                { s.plan with
                  state := .idle, number := none, interp := .cleared, queue := [], current := none, dwell := 0
                  finishAtHold := false, resume := none }
              target := { s.target with stepStart := .absent }
              order := { answeredOrder s.order source tag 4 .done with deferred := false }
              modeCtl :=
                { heardModes s.modeCtl with
                  save :=
                    if s.modeCtl.mode = .fault then
                      s.modeCtl.save.map (fun c =>
                        { c with
                          state := .idle, number := none, interp := .cleared, queue := [], current := none, dwell := 0 })
                    else s.modeCtl.save }
              line := t.line } ∧
        Reported (heardLine s.line) t.line)

/-- CLEAR_FAULT requires authority 2 and removes every kind from the latched set that is not active: DONE when one was removed, else
REFUSED_STATE. An emptied set empties the first-fault record. When no stop-class kind is left, FAULT is left for STORM or the key-implied
mode, and the relay closes: what is left latched stays, but for the PLAN_BAD that a plan start on entry into AUTO removes and a plan error
there adds; a save is taken or kept on entry into STORM, and else restored and discarded. On entry into AUTO a pending plan action is then
determined afresh and taken: a live plan is abandoned, the plan it names goes on, or a plan is started. A claim that stands STILL stays so.
That a plan restored RUNNING into AUTO has no resume point is the model's choice (log 41), and a restored step and what the rules do not
name are deduced (logs 20 and 22). ALONE has ended at the arrival of the frame before the command acts on the sets, so it is removed: the
model's choice (log 36). -/
def Obligations.ClearFaultRemovesEndedKinds : Prop :=
  ∀ (source target argument tag : Byte) (s : State) (img : Image) (active kept : FaultSet) (new : Mode),
    CommandReaches s source target → acceptedImage s = some img → 2 ≤ authorityOf img source.toNat →
    active = dropFault .alone s.modeCtl.active → kept = s.modeCtl.latched &&& active →
    new = (if stormDemand s then .storm else keyMode s) →
    (kept = s.modeCtl.latched →
      ∃ t, exec (.clearFault source target argument tag) s = .next t ∧ Answered source tag 5 .refusedState t ∧
        t = { s with
              order := answeredOrder s.order source tag 5 .refusedState, modeCtl := heardModes s.modeCtl, line := t.line } ∧
        Reported (heardLine s.line) t.line) ∧
    (kept ≠ s.modeCtl.latched → s.modeCtl.mode ≠ .fault ∨ hasStopClass kept = true →
      ∃ t, exec (.clearFault source target argument tag) s = .next t ∧ Answered source tag 5 .done t ∧
        t = { s with
              order := answeredOrder s.order source tag 5 .done
              modeCtl :=
                { s.modeCtl with
                  active := active, latched := kept
                  firstFault := if kept = 0 then none else s.modeCtl.firstFault }
              line := t.line } ∧
        Reported (heardLine s.line) t.line) ∧
    (kept ≠ s.modeCtl.latched → s.modeCtl.mode = .fault → hasStopClass kept = false →
      ∃ t, exec (.clearFault source target argument tag) s = .next t ∧ Answered source tag 5 .done t ∧
        t.modeCtl.mode = new ∧ t.modeCtl.relay = true ∧ t.modeCtl.stormClear = none ∧
        hasStopClass t.modeCtl.latched = false ∧ t.order.adopted = s.order.adopted ∧
        dropFault .planBad t.modeCtl.latched = dropFault .planBad kept ∧
        (new ≠ .auto ∨ (s.order.deferred = false ∧ ∀ c, s.modeCtl.save = some c → c.state ≠ .running) →
          t.modeCtl.latched = kept ∧ t.modeCtl.firstFault = if kept = 0 then none else s.modeCtl.firstFault) ∧
        (∀ o n, new = .auto → s.order.deferred = true → s.modeCtl.save = none → s.order.adopted = some o →
          o.mask.getLsbD s.loader.strap = true → o.plan = some n →
          ¬ PlanLive s.plan.state ∨ s.plan.number ≠ some n ∨ o.restartPlan = true →
          (t.plan.state ≠ .failed → t.modeCtl.latched = dropFault .planBad kept) ∧
            (t.plan.state = .failed → condition .planBad s = false → t.modeCtl.latched = addFault .planBad kept)) ∧
        t.modeCtl.save =
          (if new = .storm then
            some (s.modeCtl.save.getD
              { state := s.plan.state, number := s.plan.number, interp := s.plan.interp, queue := s.plan.queue
                current := s.plan.current, phase := s.plan.phase, dwell := s.plan.dwell, expected := s.tide.expected })
           else none) ∧
        (new = .storm ∨ (new ≠ .auto ∧ s.modeCtl.save = none) → t.plan = s.plan ∧ t.tide = s.tide) ∧
        (∀ c, new = .loc ∨ new = .maint → s.modeCtl.save = some c →
          t.plan.state = (if c.state = .running then .held else c.state) ∧ t.plan.number = c.number ∧ t.plan.interp = c.interp ∧
            t.plan.queue = c.queue ∧ t.plan.current = c.current ∧ t.plan.dwell = c.dwell ∧
            t.tide = { s.tide with expected := c.expected }) ∧
        (new = .auto →
          PlanAtAutoEntry img
            { s with
              modeCtl :=
                { s.modeCtl with
                  active := active, latched := kept
                  firstFault := if kept = 0 then none else s.modeCtl.firstFault } } t) ∧
        (s.grant.moveState = .still → t.grant = s.grant ∧ t.drive = s.drive) ∧
        (new = .auto → t.order.deferred = false) ∧ (new ≠ .auto → t.order.deferred = s.order.deferred) ∧
        t = { s with
              order := t.order, tide := t.tide, target := t.target, grant := t.grant, drive := t.drive, plan := t.plan
              modeCtl := t.modeCtl, line := t.line } ∧
        Reported (heardLine s.line) t.line)

/-- CLEAR_COUNTS requires authority 2; it sets the receive error counter to 0 and is answered DONE. -/
def Obligations.ClearCountsZeroesCounter : Prop :=
  ∀ (source target argument tag : Byte) (s : State) (img : Image), CommandReaches s source target →
    acceptedImage s = some img → 2 ≤ authorityOf img source.toNat →
    ∃ t, exec (.clearCounts source target argument tag) s = .next t ∧ Answered source tag 6 .done t ∧
      t = { s with
            order := answeredOrder s.order source tag 6 .done, modeCtl := heardModes s.modeCtl, line := t.line } ∧
      Reported { heardLine s.line with errors := 0 } t.line

/-- A command with a code that is none of the seven is answered UNKNOWN with the code as received, whatever the console's authority, also
after a rejected image. From a station number it is dropped and counted; with another station's number it is ignored. -/
def Obligations.UnknownCommandIsAnswered : Prop :=
  ∀ (source target code argument tag : Byte) (s : State), receiving s = true → source.toNat ≤ 23 →
    code.toNat = 0 ∨ 7 < code.toNat →
    (source.toNat ≤ 15 →
      ∃ t, exec (.unknownCommand source target code argument tag) s = .next t ∧ HeardAndCounted s t) ∧
    (16 ≤ source.toNat → target.toNat ≠ 255 → target.toNat ≠ s.loader.strap →
      ∃ t, exec (.unknownCommand source target code argument tag) s = .next t ∧ OnlyHeard s t) ∧
    (CommandReaches s source target →
      ∃ t, exec (.unknownCommand source target code argument tag) s = .next t ∧ Answered source tag code.toNat .unknown t ∧
        t = { s with
              order := answeredOrder s.order source tag code.toNat .unknown, modeCtl := heardModes s.modeCtl
              line := t.line } ∧
        Reported (heardLine s.line) t.line)

/-! ### The weir line -/

/-- A STATE that is built carries the station's state as it stands. A change of the move state, the mode, the plan state, the step index,
the latched set or the tide window by any event waits under the mark or has been built into the STATE slot; that the two sides of a change
and the state that is built are those of the whole event is deduced (log 13). When the report timer reaches REPORT_PERIOD a STATE is built
from the state of that moment and placed in the slot; while the station's own STATE is on the line the report waits; the timer is not
restarted. A mark set during the gap is served at its end, 50 ms after the last completion. The time first runs on to the moment of the
event, which is the model's choice (log 1). -/
def Obligations.DueReportsAreBuilt : Prop :=
  (∀ b : State, CarriesState (buildState b) b) ∧
  (∀ (i : Instr) (s t : State), exec i s = .next t → lineWorks t = true → ReportedChange s t →
    MarkedOrReported t) ∧
  (∀ s b : State, lineWorks s = true →
    (∀ age, s.line.reportTimer = some age → s.line.reportFired = false → b = elapse (reportPeriod s - age) s →
      (sendingState s = false →
        ∃ t, exec .periodicReport s = .next t ∧
          t = { b with
                line :=
                  { b.line with
                    reportFired := true, periodicDue := false, stateSlot := some (buildState b)
                    mark := if 50 ≤ b.line.gapTimer then false else b.line.mark
                    txTimer := if b.line.stateSlot = none then some 0 else b.line.txTimer
                    txExpired := if b.line.stateSlot = none then false else b.line.txExpired } }) ∧
      (sendingState s = true →
        ∃ t, exec .periodicReport s = .next t ∧
          t = { b with line := { b.line with reportFired := true, periodicDue := true } })) ∧
    (s.line.gapTimer ≤ 50 → s.line.periodicDue = false → b = elapse (50 - s.line.gapTimer) s →
      (s.line.mark = true → sendingState s = false →
        ∃ t, exec .gapEnd s = .next t ∧
          t = { b with
                line :=
                  { b.line with
                    mark := false, stateSlot := some (buildState b)
                    txTimer := if b.line.stateSlot = none then some 0 else b.line.txTimer
                    txExpired := if b.line.stateSlot = none then false else b.line.txExpired } }) ∧
      (s.line.mark = false → ∃ t, exec .gapEnd s = .next t ∧ t = b)))

/-- Twelve recessive bits make the line idle, and the receiver takes the next start bit again; on an idle line the station begins to send:
its STATE where both slots hold a frame, its TIDE where that slot alone does. On a line that is not idle it does not start; a start bit of
another node ends the idle at its moment. The levels that other nodes give the line come with a control tick, or without a tick where the
image has been rejected, and are held until they fall due (log 40); the line is known at whole milliseconds and at its events (log 14): the
model's choices. -/
def Obligations.IdleLineLetsStationSend : Prop :=
  (∀ s : State, lineWorks s = true → s.line.sending = none →
    (∃ t, exec .lineIdle s = .next t ∧ t = { s with line := t.line } ∧
      Reported { s.line with idle := true, awaitIdle := false, dominantRun := none } t.line) ∧
    (∀ f, s.line.idle = true → s.line.stateSlot = some f →
      ∃ t, exec .sendStart s = .next t ∧
        t = { s with
              line := { s.line with sending := some (.state f), tideReplaced := false, idle := false, dominantRun := some 0 } }) ∧
    (∀ r, s.line.idle = true → s.line.stateSlot = none → s.line.tideSlot = some r →
      ∃ t, exec .sendStart s = .next t ∧ t = { s with line := t.line } ∧
        Reported { s.line with sending := some (.tide r), tideReplaced := false, idle := false, dominantRun := some 0 } t.line) ∧
    (s.line.idle = false ∨ (s.line.stateSlot = none ∧ s.line.tideSlot = none) →
      ∃ t, exec .sendStart s = .next t ∧ Quiet s t)) ∧
  (∀ (s : State) (dt : Nat) (c : LineChange) (later : List LineChange), s.loader.inReset = false →
    s.line.changes = c :: later → c.dominant = true → c.wait ≤ dt → (elapse dt s).line.idle = false) ∧
  (∀ (s : State) (dt : Nat), NoChangeWithin dt s.line.changes → (elapse dt s).line.idle = s.line.idle) ∧
  (∀ (inputs : TickInputs) (s : State), lineWorks s = true → acceptedImage s = none →
    ∃ t, exec (.controlTick inputs) s = .next t ∧ t = { s with line := t.line } ∧
      Reported (takeChanges 0 inputs.line s.line) t.line)

/-- A sender that reads dominant where it drove recessive, or recessive where it drove dominant, stops driving; with no report waiting both
slots stay as they were. The line stands at the level it read, which begins a dominant run or ends it (log 15). The stop makes the receiver
wait for no idle, also where the line does not follow the station (log 42). At a bit that its frame does not drive so, or while it is not
sending, nothing happens (log 17). All three are the model's choices, but that the loser of an arbitration receives (R171). -/
def Obligations.LossKeepsFrameInSlot : Prop :=
  ∀ (bit : Nat) (driven : Bool) (i : Instr) (s : State) (l : Line), lineWorks s = true →
    i = (if driven then .lostArbitration bit else .lineNotFollowing bit) →
    l = { s.line with sending := none, tideReplaced := false, dominantRun := if driven then some 0 else none } →
    (drivenBit bit s = some driven →
      ∃ t, exec i s = .next t ∧ t = { s with line := t.line } ∧ Reported l t.line ∧
        (s.line.mark = false → s.line.periodicDue = false → t.line = l)) ∧
    (drivenBit bit s ≠ some driven → ∃ t, exec i s = .next t ∧ Quiet s t)

/-- A STATE that completes leaves its slot, restarts the report and gap timers, stops the TX-blocked timer and carries the restart cause; a
TIDE that completes leaves its slot unless a later event has replaced it there. Either makes TX_BLOCKED inactive. That no dominant run
stands after the last stop bit is the model's reading of the line's level (log 15). -/
def Obligations.CompletedFrameLeavesSlot : Prop :=
  ∀ s : State, lineWorks s = true →
    (∀ f, s.line.sending = some (.state f) →
      ∃ t, exec .frameComplete s = .next t ∧
        t = { s with
              modeCtl := { s.modeCtl with active := dropFault .txBlocked s.modeCtl.active }
              line :=
                { s.line with
                  stateSlot := none, sending := none, tideReplaced := false, awaitIdle := true, dominantRun := none
                  reportTimer := some 0
                  reportFired := false, periodicDue := false, gapTimer := 0, txTimer := none, txExpired := false
                  causeToCarry := none } }) ∧
    (∀ r, s.line.sending = some (.tide r) →
      ∃ t, exec .frameComplete s = .next t ∧
        t = { s with
              modeCtl := { s.modeCtl with active := dropFault .txBlocked s.modeCtl.active }
              line := t.line } ∧
        Reported
          { s.line with
            tideSlot := if s.line.tideReplaced then s.line.tideSlot else none
            sending := none, tideReplaced := false, awaitIdle := true, dominantRun := none } t.line)

/-- TX_BLOCKED becomes active and is latched, without a change of the mode, when the TX-blocked timer reaches 2000 ms or the dominant run
exceeds it. A run that still stands at 2000 ms exceeds them, also where the line becomes recessive a millisecond later. A run starts from 0
where the line becomes dominant, counts on while it stays so, and stops where it becomes recessive; with no run, with one that has ended by
2000 ms, or with one of the station's own sending, nothing happens. The time first runs on to the moment of the event (log 1), the
station's own frame holds no run for long (log 15), an event without its occasion does nothing (log 17), and the changes of level that
other nodes make are held until they fall due (log 40): the model's choices. -/
def Obligations.BlockedSenderIsLatched : Prop :=
  (∀ (s c b : State) (age : Nat), lineWorks s = true → condition .txBlocked s = false →
    (s.line.txTimer = some age → s.line.txExpired = false → b = elapse (2000 - age) s →
      ∃ t, exec .txBlockedTimer s = .next t ∧ t = { b with modeCtl := raisedModes .txBlocked b, line := t.line } ∧
        Reported b.line t.line) ∧
    (s.line.dominantRun = some age → c = elapse (2000 - age) s → b = elapse (2001 - age) s →
      (∀ run, s.line.sending = none → c.line.dominantRun = some run → 2000 ≤ run →
        ∃ t, exec .dominantRun s = .next t ∧ t = { b with modeCtl := raisedModes .txBlocked b, line := t.line } ∧
          Reported { b.line with idle := false, awaitIdle := true } t.line) ∧
      ((∀ run, c.line.dominantRun = some run → run < 2000) ∨ (s.line.sending.isSome ∧ age ≤ 2000) →
        ∃ t, exec .dominantRun s = .next t ∧ Quiet s t)) ∧
    (s.line.dominantRun = none → ∃ t, exec .dominantRun s = .next t ∧ Quiet s t)) ∧
  (∀ (s : State) (c : LineChange) (later : List LineChange) (dt : Nat), s.loader.inReset = false → s.line.sending = none →
    s.line.changes = c :: later → NoChangeWithin dt later →
    (c.dominant = true → s.line.dominantRun = none → (elapse (c.wait + dt) s).line.dominantRun = some dt) ∧
    (c.dominant = true → ∀ run, s.line.dominantRun = some run →
      (elapse (c.wait + dt) s).line.dominantRun = some (run + c.wait + dt)) ∧
    (c.dominant = false → (elapse (c.wait + dt) s).line.dominantRun = none)) ∧
  (∀ (s : State) (dt : Nat), s.loader.inReset = false → s.line.sending = none → NoChangeWithin dt s.line.changes →
    (elapse dt s).line.dominantRun = s.line.dominantRun.map (· + dt))

/-- Of two STATE frames that start together the one of the lower station number wins, and a STATE wins over any TIDE: at the first bit in
which they differ the winner drives dominant and the other recessive. -/
def Obligations.LowerNumberWinsArbitration : Prop :=
  ∀ (a b : Nat) (f g : OutFrame), a ≤ 15 → b ≤ 15 →
    ((∃ x y, f = .state x ∧ g = .state y ∧ a < b) ∨ (∃ x y, f = .state x ∧ g = .tide y) ∨
      (∃ x y, f = .tide x ∧ g = .tide y ∧ a < b)) →
    ∃ n, (wireBits (outFrameBytes a f)).take n = (wireBits (outFrameBytes b g)).take n ∧
      (wireBits (outFrameBytes a f))[n]? = some false ∧ (wireBits (outFrameBytes b g))[n]? = some true

/-- The payload of a STATE and of a TIDE frame carries every field: what a receiver reads from the bytes a station sends is what the
station put in, wherever the fields can carry it. Of the four bytes of a COMMAND payload the second picks the command, and the others are
its target, its argument and its tag; a payload of another length is no command. -/
def Obligations.PayloadsCarryEveryField : Prop :=
  (∀ f : StateFrame, StateFits f → stateOfPayload (statePayload f) = some f) ∧
  (∀ r : TideRecord, TideFits r → tideOfPayload (tidePayload r) = some r) ∧
  (∀ (source : Byte) (payload : List Byte) (straps : BitVec 4), payload.length ≠ 4 → eventOfCommand source payload straps = none) ∧
  (∀ (source target code argument tag : Byte) (straps : BitVec 4) (i : Instr),
    eventOfCommand source [target, code, argument, tag] straps = some i →
    (code.toNat = 1 → i = .resume source target argument tag) ∧ (code.toNat = 2 → i = .finishAtHold source target argument tag) ∧
      (code.toNat = 3 → i = .tideEvent source target argument tag) ∧ (code.toNat = 4 → i = .abandon source target argument tag) ∧
      (code.toNat = 5 → i = .clearFault source target argument tag) ∧
      (code.toNat = 6 → i = .clearCounts source target argument tag) ∧
      (code.toNat = 7 → i = .restart source target argument tag straps) ∧
      (code.toNat = 0 ∨ 7 < code.toNat → i = .unknownCommand source target code argument tag)) ∧
  (∀ (source target code argument tag : Byte) (straps : BitVec 4),
    (eventOfCommand source [target, code, argument, tag] straps).isSome)

/-- A frame that a station sends, received whole by another, shows none of the faults of reception: kind, source, length, check word and
codes are as a receiver asks for them. -/
def Obligations.SentFramesPassReception : Prop :=
  ∀ (source : Nat) (f : OutFrame), source ≤ 23 → arrivalFault (outFrameBytes source f) = false

/-! ### The control tick -/

/-- A control tick starts both encoder reads and samples limit switches, keys and STORM input, in whatever order the blocks evaluate; it
leaves levels, peers and the adopted order alone. The sample gives the mode, but for a stop-class fault at the same tick: the storm demand
takes AUTO and LOCAL to STORM, the keys change AUTO, LOCAL and MAINT. Entry into STORM takes the save and starts no clear timer; leaving
AUTO holds a RUNNING plan; entry into AUTO takes a pending plan action, determined afresh, and lets HALT stop the claim, and leaving MAINT
stops a bypass claim. Entry into MAINT or STORM drops a claim in WANT, lets one in WARN warn afresh as a bypass claim with the lead of the
new mode, and one in MOVING go on as a bypass claim. What the sample makes stands when its turn ends, and the blocks after it evaluate from
there. The order of the evaluations is an operand (log 5); the limit samples stand for the other blocks from the end of the reads on (log
8, deduced). The time first runs on to the moment of the event (log 1), and a unit whose timer's row has made this tick's evaluation does
not evaluate again (log 26), and the tick brings the coming changes of the line's level (log 40), and a plan restored RUNNING into AUTO has
no resume point (log 41): the model's choices. What becomes of a restored step, and of what the rules do not name, the announce timer of a
bypass claim that stops among it, is deduced (logs 20 and 22). -/
def Obligations.ControlTickSamplesInputs : Prop :=
  ∀ (inputs : TickInputs) (s b c m : State) (img : Image) (demand : Bool) (key new : Mode), Serving s img →
    b = elapse (60 - s.clocks.tick) s → c = atTurn img inputs .mode s → m = afterTurn img inputs .mode s →
    demand = (c.modeCtl.condOrder || inputs.stormInput || c.modeCtl.condLevel) →
    key = (if inputs.maintKey then .maint else if inputs.localKey then .loc else .auto) →
    new =
      (match c.modeCtl.mode with
        | .auto | .loc => if demand then .storm else key
        | .maint => if inputs.maintKey then .maint else if demand then .storm else key
        | m => m) →
    ∃ t, exec (.controlTick inputs) s = .next t ∧ t.position.left.readTimer = some 0 ∧ t.position.right.readTimer = some 0 ∧
      t.position.upperTaken = inputs.upperSwitch ∧ t.position.lowerTaken = inputs.lowerSwitch ∧
      t.modeCtl.maintKey = inputs.maintKey ∧ t.modeCtl.localKey = inputs.localKey ∧
      t.modeCtl.stormInput = inputs.stormInput ∧ t.modeCtl.condInput = inputs.stormInput ∧
      t.order.adopted = s.order.adopted ∧ t.order.lastCommand = s.order.lastCommand ∧
      (t.modeCtl.mode = new ∨
        (t.modeCtl.mode = .fault ∧
          ∃ k, isStopClass k = true ∧ hasFault k t.modeCtl.latched = true ∧ hasFault k c.modeCtl.latched = false)) ∧
      (t.modeCtl.mode = .storm →
        t.modeCtl.stormClear = (if demand then none else if stormDemand c then some 0 else c.modeCtl.stormClear)) ∧
      (c.modeCtl.mode ≠ .storm → t.modeCtl.mode = .storm → c.modeCtl.save = none →
        t.modeCtl.save = some
          { state := c.plan.state, number := c.plan.number, interp := c.plan.interp, queue := c.plan.queue
            current := c.plan.current, phase := c.plan.phase, dwell := c.plan.dwell, expected := c.tide.expected }) ∧
      (c.modeCtl.mode = .auto → new ≠ .auto → c.modeCtl.save = none → c.plan.state = .running →
        t.plan.state = .held ∧ t.plan.resume = (if c.plan.current.isSome then some .current else some .next)) ∧
      (c.modeCtl.mode ≠ .auto → t.modeCtl.mode = .auto →
        t.order.deferred = false ∧ (haltInForce s = true → t.grant.moveState = .still)) ∧
      m.modeCtl.mode = new ∧
      (c.modeCtl.mode = new → m.grant = c.grant ∧ m.drive = c.drive ∧ m.plan = c.plan ∧ m.target = c.target ∧ m.tide = c.tide ∧
        m.order = c.order) ∧
      (c.modeCtl.mode ≠ new → new = .auto → PlanAtAutoEntry img c m) ∧
      (c.modeCtl.mode ≠ new → new = .storm → ClaimBypassed (img.params.warnLead * 1000) c m) ∧
      (c.modeCtl.mode ≠ new → new = .maint → ClaimBypassed 0 c m) ∧
      (c.modeCtl.mode ≠ new → new = .auto ∨ new = .loc → ClaimUnbypassed (new = .auto ∧ haltInForce s = true) c m) ∧
      t = { restOfTick img inputs .mode m with line := t.line } ∧
      (c.modeCtl.mode ≠ t.modeCtl.mode → t.modeCtl.mode = .maint ∨ t.modeCtl.mode = .storm →
        (c.grant.moveState = .still → c.grant.moveKind = .noClaim) → t.grant.moveKind ≠ .granted) ∧
      t = { b with
            position := t.position, tide := t.tide, order := t.order, target := t.target, grant := t.grant, drive := t.drive
            plan := t.plan, modeCtl := t.modeCtl, line := t.line
            clocks :=
              { b.clocks with
                tick := b.clocks.tick - 60, grantAhead := b.clocks.grantAhead - 60, driveAhead := b.clocks.driveAhead - 60
                planAhead := b.clocks.planAhead - 60 } } ∧
      Reported (takeChanges 0 inputs.line b.line) t.line

/-- At a control tick the Target Unit resolves the demand of the station as it stands at its turn: the first source that applies with its
speed class, the holds and the buttons, the share by rank among the sharers, the order value with the root of the head, the six step
targets, the availability, SHARE_UNMET, the neighbour clamp and the two indications, with the neighbours and the sharers that the Peer
Table answers. A station that is in STORM before and after a control tick has both targets 0 at the STORM speed, whatever its order, its
plan and its neighbours ask. The order of the evaluations is an operand (log 5); a HEAD hold keeps the source STEP or TRACK (log 21,
deduced); a step whose record is EMPTY, which none of a plan is, holds (log 39); a hold lasts as long as its reason (log 32), the share is
computed on the availability of the same evaluation (log 33), and the time first runs on to the tick (log 1): the model's choices. -/
def Obligations.StormTargetsTheSill : Prop :=
  (∀ (s : State) (img : Image), TargetLookups img s) ∧
  ∀ (inputs : TickInputs) (s : State) (img : Image), Serving s img →
    (∃ t, exec (.controlTick inputs) s = .next t ∧
      TargetEvaluated img inputs.raise inputs.lower (atTurn img inputs .target s) t.target) ∧
    (s.modeCtl.mode = .storm →
      ∃ t, exec (.controlTick inputs) s = .next t ∧
        (t.modeCtl.mode = .storm ∨ t.modeCtl.mode = .fault) ∧
        (t.modeCtl.mode = .storm →
          t.target.effective = 0 ∧ t.target.unclamped = 0 ∧ t.target.source = .storm ∧ t.target.speed = .storm))

/-- After its announce wait a claim in WANT is withdrawn where it is not off target or not admitted, enters WARN where fewer than
MOVE_LIMIT claimants are counted, and stays otherwise; after its warning lead a claim in WARN is withdrawn in the same way, yields where
MOVE_LIMIT movers of lower key are counted, and else starts to move with the pump ready or starts the pump timer without. Each is judged at
the first control tick at which the timer has elapsed, and stands for the Grant Unit's evaluation of that tick, to which the time first
runs on: the model's choices (logs 1 and 26). At a control tick the Grant Unit evaluates the claim as it stands at its turn: entry into
WANT with its ticket, bypass entry into WARN, withdrawal, yield, the pump timer, the start and the end of motion with LIMITED. The
admission is the first row of its table that applies, and claimants, movers of lower key and highest ticket are counted from the rows. A
pump found ready stops the pump timer at its limit, and the end of motion comes before it (logs 34 and 35, the model's choices). That the
announce timer stops also at a withdrawal from WARN and at the end of motion is deduced (log 22). -/
def Obligations.ClaimAdvancesAtItsTimers : Prop :=
  (∀ (s : State) (img : Image), AdmissionIs img s ∧ HaltIs s ∧ GrantLookups s) ∧
  (∀ (s b : State) (img : Image) (age m : Nat), Serving s img →
    (s.grant.moveState = .want → s.grant.announceTimer = some age →
      m = max (s.clocks.grantAhead + 60) (60 * ((s.clocks.tick + (img.params.announceWait - age) + 59) / 60)) →
      b = withGrantAhead m (elapse (m - s.clocks.tick) s) →
      (s.target.offTarget = false ∨ admission img s ≠ .throughGrant →
        ∃ t, exec .announceWait s = .next t ∧ ClaimDropped b t) ∧
      (s.target.offTarget = true → admission img s = .throughGrant → claimants s < img.params.moveLimit →
        ∃ t, exec .announceWait s = .next t ∧
          t = { b with
                grant := claimWarn b.grant .granted s.grant.ticket (img.params.warnLead * 1000), line := t.line } ∧
          Reported b.line t.line) ∧
      (s.target.offTarget = true → admission img s = .throughGrant → img.params.moveLimit ≤ claimants s →
        ∃ t, exec .announceWait s = .next t ∧ Quiet b t)) ∧
    (s.grant.moveState = .warn → s.grant.warnTimer = some age →
      m = max (s.clocks.grantAhead + 60) (60 * ((s.clocks.tick + (s.grant.warnLead - age) + 59) / 60)) →
      b = withGrantAhead m (elapse (m - s.clocks.tick) s) →
      (∀ ready, s.target.offTarget = false ∨ (s.grant.moveKind ≠ .bypass ∧ admission img s ≠ .throughGrant) →
        ∃ t, exec (.warnLead ready) s = .next t ∧ ClaimDropped b t) ∧
      (∀ ready, s.target.offTarget = true → s.grant.moveKind ≠ .bypass → admission img s = .throughGrant →
        img.params.moveLimit ≤ yieldCount s →
        ∃ t, exec (.warnLead ready) s = .next t ∧ t = { b with grant := claimYielded b.grant, line := t.line } ∧
          Reported b.line t.line) ∧
      (s.target.offTarget = true →
        (s.grant.moveKind = .bypass ∨ (admission img s = .throughGrant ∧ yieldCount s < img.params.moveLimit)) →
        (∃ t, exec (.warnLead true) s = .next t ∧
          t = { b with
                grant :=
                  { b.grant with
                    moveState := .moving, warnTimer := none, pumpTimer := none, horn := true, pumpRun := true
                    driveEnable := true }
                drive :=
                  { b.drive with
                    setpoint := b.position.opening * 1000
                    stall := some { age := 0, startOpening := b.position.opening } }
                line := t.line } ∧
          Reported b.line t.line) ∧
        (b.grant.pumpTimer.getD 0 < img.params.pumpWait * 1000 →
          ∃ t, exec (.warnLead false) s = .next t ∧
            t = { b with grant := { b.grant with pumpTimer := some (b.grant.pumpTimer.getD 0) }, line := t.line } ∧
            Reported b.line t.line)))) ∧
  (∀ (inputs : TickInputs) (s b : State) (img : Image), Serving s img → s.clocks.grantAhead < 60 →
    b = atTurn img inputs .grant s →
    ∃ t, exec (.controlTick inputs) s = .next t ∧
      (t.modeCtl.mode = b.modeCtl.mode → ClaimEvaluated img inputs.pumpReady b t.grant t.target.limited))

/-- The dwell of a step that runs out passes to TIDE: with TIDE_WAIT and an empty latch the step waits there; else it is DONE at once, a
set latch being taken and the expected kind toggled where it waited. A LAST step that is done ends the plan, a HOLD_POINT step with a
request holds it, and from any other the plan takes its next step, or ends where none is left. Whatever it finds, the event touches nothing
else. The phase passes at the control tick at which the counter reaches 0, which stands for the Plan Sequencer's evaluation of that tick
and to which the time first runs on: the model's choices (logs 1 and 26). At a control tick the Sequencer evaluates the plan as it stands
at its turn: AIM with its completion, DWELL with its countdown, TIDE; not while HALT is in force. A plan that passes on from a step to the
next is marked or reported, also where both have one index. What the end of a plan does not name keeps its value, the phase DONE among it
(log 22, deduced). -/
def Obligations.ExpiredDwellPassesToTide : Prop :=
  (∀ (s b : State) (img : Image) (i m : Nat), Serving s img → s.plan.state = .running → s.plan.phase = .dwell →
    s.plan.current = some i → haltInForce s = false →
    m = max (s.clocks.planAhead + 60) (60 * ((s.clocks.tick + 59) / 60)) + 60 * ((s.plan.dwell - 1) / 60) →
    b = withPlanAhead m (elapse (m - s.clocks.tick) s) →
    ∃ t, exec .dwellExpired s = .next t ∧
      TidePassed img b i { b.plan with dwell := 0, phase := .tide } t.plan t.tide t.target.stepStart ∧
      (StepPassesOn img { s with plan := { s.plan with dwell := 0 } } → MarkedOrReported t) ∧
      (t.plan.state ≠ .failed → t.modeCtl = b.modeCtl) ∧
      (t.plan.state = .failed →
        condition .planBad t = false ∧
          (condition .planBad s = false → t.modeCtl.latched = addFault .planBad s.modeCtl.latched)) ∧
      t = { b with
            plan := t.plan, tide := t.tide, target := { b.target with stepStart := t.target.stepStart }
            modeCtl :=
              { b.modeCtl with
                active := t.modeCtl.active, latched := t.modeCtl.latched, firstFault := t.modeCtl.firstFault }
            line := t.line } ∧
      Reported b.line t.line) ∧
  (∀ (inputs : TickInputs) (s b : State) (img : Image), Serving s img → s.clocks.planAhead < 60 →
    b = atTurn img inputs .plan s →
    ∃ t, exec (.controlTick inputs) s = .next t ∧
      (StepPassesOn img b → MarkedOrReported t) ∧
      (t.modeCtl.mode = b.modeCtl.mode →
        ∃ p start, PlanEvaluated img b p t.tide start ∧ t.plan = { p with aimJudged := t.plan.aimJudged } ∧
          (t.target.stepStart = start ∨
            (start = .pending ∧ b.position.established = true ∧
              t.target.stepStart = .recorded b.position.opening))))

/-! ### Storm and time -/

/-- When the storm clear timer reaches STORM_CLEAR_TIME the station leaves STORM for the key-implied mode; a bypass claim under way stops
on entry into AUTO or LOCAL; the save is restored and discarded, a plan saved RUNNING standing HELD outside AUTO. In AUTO with no plan
action pending a plan saved RUNNING runs on with its queue refilled, its current step aimed again or its next step taken, and a plan saved
HELD stands HELD at its resume point; a pending action is determined afresh and taken over the restored plan, which is abandoned, goes on
or gives way to a started one, and HALT stops the claim. On entry into MAINT a claim in WANT is dropped, one in WARN warns afresh with the
lead 0, and one in MOVING goes on. A restored step waits for a new evaluation of the Target Unit (log 20, deduced); what the rules do not
name keeps its value, but for the announce timer, which stops with a claim (log 22, deduced). That a plan restored RUNNING into AUTO has no
resume point (log 41), and that the time first runs on to the moment of the event (log 1), are the model's choices. -/
def Obligations.StormEndRestoresSave : Prop :=
  ∀ (s b : State) (img : Image) (age : Nat), Serving s img → s.modeCtl.mode = .storm → s.modeCtl.stormClear = some age →
    b = elapse (img.params.stormClearTime * 1000 - age) s →
    ∃ t, exec .stormClearTime s = .next t ∧ t.modeCtl.mode = keyMode s ∧ t.modeCtl.relay = true ∧ t.modeCtl.save = none ∧
      t.modeCtl.stormClear = none ∧
      (keyMode s ≠ .maint → s.grant.moveKind = .bypass → underWay s.grant.moveState = true →
        t.grant.moveState = .still ∧ t.grant.ticket = 0 ∧
          (s.grant.moveState = .moving → t.drive.setpoint = s.position.opening * 1000 ∧ t.drive.cmdL = 0 ∧ t.drive.cmdR = 0)) ∧
      (∀ c, s.modeCtl.save = some c → keyMode s ≠ .auto →
        t.plan.state = (if c.state = .running then .held else c.state) ∧ t.plan.number = c.number ∧
          t.plan.interp = c.interp ∧ t.plan.queue = c.queue ∧ t.plan.current = c.current ∧ t.plan.dwell = c.dwell ∧
          t.tide.expected = c.expected ∧ t.tide.latch = s.tide.latch ∧ t.plan.finishAtHold = s.plan.finishAtHold) ∧
      (keyMode s = .auto → t.order.deferred = false ∧ (haltInForce s = true → t.grant.moveState = .still)) ∧
      (keyMode s = .auto → PlanAtAutoEntry img b t) ∧
      (keyMode s = .maint → ClaimBypassed 0 b t) ∧
      (keyMode s ≠ .maint → ClaimUnbypassed (keyMode s = .auto ∧ haltInForce s = true) b t) ∧
      (∀ c q, s.modeCtl.save = some c → keyMode s = .auto → s.order.deferred = false →
        q = { s.plan with
              state := c.state, number := c.number, interp := c.interp, queue := c.queue, current := c.current
              phase := c.phase, dwell := c.dwell } →
        t.tide = { s.tide with expected := c.expected } ∧
        (c.state = .running →
          ∀ p, refillLoop img refillFuel
              { q with
                resume := none, phase := if c.current.isSome then .aim else c.phase
                aimJudged := if c.current.isSome then false else s.plan.aimJudged } = some p →
            (c.current.isSome ∨ haltInForce s = true → t.plan = p ∧ t.target.stepStart = s.target.stepStart) ∧
            (c.current = none → haltInForce s = false → StepTaken img b p t.plan t.target.stepStart)) ∧
        (c.state = .held →
          t.plan =
            { q with resume := if c.phase = .done ∨ c.current = none then some .next else some .current }) ∧
        (¬ PlanLive c.state → t.plan = q)) ∧
      t = { b with
            order := t.order, tide := t.tide, target := t.target, grant := t.grant, drive := t.drive, plan := t.plan
            modeCtl := t.modeCtl, line := t.line } ∧
      Reported b.line t.line

/-- The weir clock's millisecond returns to 0 at 86,400,000 and the day counts up by one, or returns to 0 past 65535. The time first runs
on to the moment of the event, which is the model's choice (log 1). -/
def Obligations.WeirClockTurnsTheDay : Prop :=
  ∀ (s b : State), s.loader.inReset = false → s.order.clockMs < 86400000 → b = elapse (86400000 - s.order.clockMs) s →
    ∃ t, exec .weirClockDay s = .next t ∧ t.order.clockMs = 0 ∧
      t.order.clockDay = (s.order.clockDay + 1) % 65536 ∧
      t = { b with line := t.line } ∧ Reported b.line t.line

/-! ### The arithmetic of plans and targets -/

/-- A refill is nothing with the queue full or the ended flag set, and else one action followed by a refill; so it ends full, ended or with
an error, whatever the program, never gives up half-way, and errs only where an action errs. Each action is one push or one code: the
cursor pushes its index and moves through its group, clearing the spin count; STEPS sets the cursor, REPEAT and FOREVER push a loop frame,
NEXT goes round or leaves the innermost loop, CALL and RETURN use the call stack, END sets the ended flag; an undecodable code, an address
above 63, an EMPTY record or an index above 127, a stack full or empty and a 33rd code without a push are errors. -/
def Obligations.RefillRunsToItsEnd : Prop :=
  (∀ (img : Image) (p : Plan),
    refillLoop img refillFuel p =
      (if 8 ≤ p.queue.length ∨ p.interp.ended = true then some p
       else (refillAction img p).bind (refillLoop img refillFuel))) ∧
  (∀ (img : Image) (p : Plan), refillLoop img refillFuel p = none →
    ∃ q, Relation.ReflTransGen
        (fun a b => a.queue.length < 8 ∧ a.interp.ended = false ∧ refillAction img a = some b) p q ∧
      q.queue.length < 8 ∧ q.interp.ended = false ∧ refillAction img q = none) ∧
  (∀ (img : Image) (p q : Plan), refillLoop img refillFuel p = some q →
    (8 ≤ q.queue.length ∨ q.interp.ended = true) ∧ p.queue <+: q.queue ∧
      { p with interp := q.interp, queue := q.queue } = q) ∧
  (∀ (img : Image) (p : Plan) (c : Cursor), p.interp.cursor = some c →
    (c.index ≤ 127 → (stepAt img c.index).kind ≠ .empty →
      refillAction img p = some
        { p with
          queue := p.queue ++ [c.index]
          interp :=
            { p.interp with
              spin := 0
              cursor :=
                if c.index < c.last then some { c with index := c.index + 1 }
                else if 2 ≤ c.remaining then some { c with index := c.first, remaining := c.remaining - 1 }
                else none } }) ∧
    (127 < c.index ∨ (stepAt img c.index).kind = .empty → refillAction img p = none)) ∧
  (∀ (img : Image) (p : Plan), p.interp.cursor = none →
    (32 ≤ p.interp.spin ∨ 63 < p.interp.codePtr → refillAction img p = none) ∧
    (∀ (k : RawCode) (at1 : Interp), p.interp.spin < 32 → p.interp.codePtr ≤ 63 → img.codes[p.interp.codePtr]? = some k →
      at1 = { p.interp with spin := p.interp.spin + 1, codePtr := p.interp.codePtr + 1 } →
      (k.op = 1 →
        refillAction img p =
          (if k.a ≤ k.b ∧ 1 ≤ k.c ∧ k.c ≤ 255 then
            some
              { p with interp := { at1 with cursor := some { index := k.a, first := k.a, last := k.b, remaining := k.c } } }
           else none)) ∧
      (k.op = 2 →
        refillAction img p =
          (if 2 ≤ k.a ∧ k.a ≤ 255 ∧ p.interp.loops.length < 4 then
            some { p with interp := { at1 with loops := { body := at1.codePtr, remaining := some k.a } :: p.interp.loops } }
           else none)) ∧
      (k.op = 3 →
        refillAction img p =
          (if p.interp.loops.length < 4 then
            some { p with interp := { at1 with loops := { body := at1.codePtr, remaining := none } :: p.interp.loops } }
           else none)) ∧
      (k.op = 4 →
        (p.interp.loops = [] → refillAction img p = none) ∧
        (∀ f rest, p.interp.loops = f :: rest →
          (f.remaining = none → refillAction img p = some { p with interp := { at1 with codePtr := f.body } }) ∧
          (∀ n, f.remaining = some n →
            refillAction img p =
              (if 2 ≤ n then
                some
                  { p with interp := { at1 with codePtr := f.body, loops := { f with remaining := some (n - 1) } :: rest } }
               else some { p with interp := { at1 with loops := rest } })))) ∧
      (k.op = 5 →
        refillAction img p =
          (if p.interp.calls.length < 4 then
            some { p with interp := { at1 with codePtr := k.a, calls := at1.codePtr :: p.interp.calls } }
           else none)) ∧
      (k.op = 6 →
        (p.interp.calls = [] → refillAction img p = none) ∧
        (∀ a rest, p.interp.calls = a :: rest →
          refillAction img p = some { p with interp := { at1 with codePtr := a, calls := rest } })) ∧
      (k.op = 7 →
        refillAction img p = some { p with interp := { at1 with codePtr := p.interp.codePtr, ended := true } }) ∧
      (k.op = 0 ∨ 7 < k.op → refillAction img p = none)))

/-- Over the stations that see one another alike the shares of a discharge order add up to the order, and differ by at most one. -/
def Obligations.SharesAddUpToOrder : Prop :=
  ∀ total n : Nat, 0 < n →
    ((List.range n).map (shareOf total n)).sum = total ∧
      ∀ i j, i < j → j < n → shareOf total n j ≤ shareOf total n i ∧ shareOf total n i ≤ shareOf total n j + 1

/-- The neighbour clamp keeps a target within OPEN_MAX, and without neighbours that bound it does nothing else; where the neighbours leave
an opening within SPREAD of every one of them, it is the unclamped target or the nearer bound, brought into the travel, and so lies there,
and a target that lies there already is not changed; where they leave none, the target is the floor of the midpoint between the highest and
the lowest of them. -/
def Obligations.ClampKeepsWithinSpread : Prop :=
  ∀ (img : Image) (openings : List Nat) (unclamped : Nat),
    neighbourClamp img openings unclamped ≤ img.params.openMax ∧
    (openings = [] → neighbourClamp img openings unclamped = min img.params.openMax unclamped) ∧
    ((∀ p ∈ openings, p ≤ img.params.openMax) → (∀ p ∈ openings, ∀ q ∈ openings, p ≤ q + 2 * img.params.spread) →
      (∀ p ∈ openings,
        neighbourClamp img openings unclamped ≤ p + img.params.spread ∧
          p ≤ neighbourClamp img openings unclamped + img.params.spread) ∧
      (unclamped ≤ img.params.openMax →
        (∀ p ∈ openings, unclamped ≤ p + img.params.spread ∧ p ≤ unclamped + img.params.spread) →
        neighbourClamp img openings unclamped = unclamped)) ∧
    (∀ p ∈ openings, ∀ q ∈ openings, (∀ x ∈ openings, q ≤ x ∧ x ≤ p) → p ≤ q + 2 * img.params.spread →
      (neighbourClamp img openings unclamped : Int) =
        max 0 (min (img.params.openMax : Int)
          (max ((p : Int) - img.params.spread) (min ((q : Int) + img.params.spread) unclamped)))) ∧
    (∀ p ∈ openings, ∀ q ∈ openings, (∀ x ∈ openings, q ≤ x ∧ x ≤ p) → q + 2 * img.params.spread < p →
      neighbourClamp img openings unclamped = min img.params.openMax ((p + q) / 2))

/-- The setpoint moves by its speed toward its goal and stops on it; the base command is that of R110; a valve command lies in -1000..1000,
is that of R111 with neither limit sampled, passes freely away from a sampled limit and is 0 outward of it; its code is that of R112, 8192
at command 0 and in 0..16383. At a control tick the Drive Unit drives the gate so in MOVING, counts its mismatch runs and starts its stall
window again where the base command is not hard or the gate has moved; outside MOVING commands and codes rest. With both sides good SKEW is
active exactly while the skew is beyond SKEW_TRIP, and takes the station to FAULT; else its condition stays as it was. The order of the
evaluations is an operand (log 5), the limit samples are those of the latest reads that have ended (log 8, deduced), and the time first
runs on to the tick (logs 1 and 26, the model's choices). -/
def Obligations.DriveKeepsItsLimits : Prop :=
  (∀ setpoint goal speed : Nat,
    (goal ≤ setpoint → ramp setpoint goal speed = max goal (setpoint - speed)) ∧
      (setpoint ≤ goal → ramp setpoint goal speed = min goal (setpoint + speed))) ∧
  (∀ (side : Side) (base trim : Int) (upper lower : Bool),
    -1000 ≤ valveCommand side base trim upper lower ∧ valveCommand side base trim upper lower ≤ 1000 ∧
      (upper = true → valveCommand side base trim upper lower ≤ 0) ∧
      (lower = true → 0 ≤ valveCommand side base trim upper lower) ∧
      (∀ free, free = max (-1000) (min 1000 (match side with | .left => base - trim | .right => base + trim)) →
        (upper = false → lower = false → valveCommand side base trim upper lower = free) ∧
        (upper = true ∧ 0 < free ∨ lower = true ∧ free < 0 → valveCommand side base trim upper lower = 0) ∧
        (upper = true → lower = false → free ≤ 0 → valveCommand side base trim upper lower = free) ∧
        (lower = true → upper = false → 0 ≤ free → valveCommand side base trim upper lower = free))) ∧
  (∀ kp setpoint opening : Nat,
    baseCommand kp (controlError setpoint opening) =
      max (-1000) (min 1000 ((((setpoint : Int) - (opening : Int) * 1000) * kp).tdiv 1000))) ∧
  (∀ command null : Int, converterCode command null ≤ 16383 ∧ converterCode 0 0 = 8192 ∧
    (-200 ≤ null → null ≤ 200 → converterCode 0 null = (8192 + null).toNat) ∧
    (converterCode command null : Int) = max 0 (min 16383 (8192 + (command * 8191).tdiv 1000 + null)) ∧
    (∀ c : Int, command ≤ c → converterCode command null ≤ converterCode c null)) ∧
  (∀ (inputs : TickInputs) (s b : State) (img : Image), Serving s img → s.clocks.driveAhead < 60 →
    b = atTurn img inputs .drive s →
    ∃ t, exec (.controlTick inputs) s = .next t ∧
      (t.modeCtl.mode = b.modeCtl.mode → t.grant.moveState = b.grant.moveState →
        DriveEvaluated img inputs.readbackL inputs.readbackR b t.drive) ∧
      (bothGood b = true → (condition .skew t = true ↔ img.params.skewTrip < b.position.skew.natAbs)) ∧
      (bothGood b = false → condition .skew t = condition .skew b) ∧
      (bothGood b = true → img.params.skewTrip < b.position.skew.natAbs → condition .skew b = false →
        hasFault .skew b.modeCtl.latched = false → canFault b.modeCtl.mode = true →
        t.modeCtl.mode = .fault ∧ hasFault .skew t.modeCtl.latched = true))

/-! ### Invariants -/

/-- The sound states of the invariants below: a state after reset is one. Its line is idle and holds no change of level to come, by the
model's choice (logs 14 and 40). -/
def Obligations.ResetStateIsSound : Prop :=
  ∀ (cause : RestartCause) (lasts : Bool) (straps : BitVec 4),
    GateSound (State.initial cause lasts straps.toNat) ∧ ModeSound (State.initial cause lasts straps.toNat) ∧
      PlanSound (State.initial cause lasts straps.toNat) ∧ PeersSound (State.initial cause lasts straps.toNat) ∧
      LineSound (State.initial cause lasts straps.toNat) ∧ PositionSound (State.initial cause lasts straps.toNat)

/-- Every step keeps the gate outputs sound: horn, pump run and drive enable follow the move state, the ticket and the timers agree with
the claim, the valves are commanded in MOVING alone and within their ranges, in START and FAULT the gate stands STILL without a claim and
with every output off, and a granted claim stands in AUTO and LOCAL alone, a bypass claim in STORM and MAINT alone. That no announce timer
runs in STILL is deduced (log 22). -/
def Obligations.EveryStepKeepsGateSound : Prop :=
  ∀ s t : State, GateSound s → StartSound s → step s = .next t → GateSound t

/-- Every step keeps modes, faults and storm sound: the mode is FAULT exactly while a stop-class kind is latched, the relay follows the
mode, what is active is latched, no storm demand stands in AUTO or LOCAL, and the save and the clear timer stand where they belong. -/
def Obligations.EveryStepKeepsModeSound : Prop :=
  ∀ s t : State, ModeSound s → step s = .next t → ModeSound t

/-- Every step keeps the plan sound: RUNNING in AUTO alone, a resume point exactly while HELD, nothing left over of a plan that is not
live, stacks and queue in their depths, and the save in agreement with the live plan. That a plan restored RUNNING into AUTO has no resume
point is the model's choice (log 41). -/
def Obligations.EveryStepKeepsPlanSound : Prop :=
  ∀ s t : State, PlanSound s → ModeSound s → step s = .next t → PlanSound t

/-- Every step keeps Peer Table, Line Interface and position sound. The line's idle and its dominant run follow the events and the changes
of level that the station is told of, which it holds from the end of the image read on, by the model's choice (logs 14, 15 and 40). -/
def Obligations.EveryStepKeepsLineSound : Prop :=
  ∀ s t : State, PeersSound s → LineSound s → PositionSound s → StartSound s → step s = .next t →
    PeersSound t ∧ LineSound t ∧ PositionSound t

/-- A station leaves FAULT by a CLEAR_FAULT, a RESTART or a reset, and by no other event. -/
def Obligations.OnlyClearOrResetLeavesFault : Prop :=
  ∀ (i : Instr) (s t : State), StartSound s → s.modeCtl.mode = .fault → exec i s = .next t → t.modeCtl.mode ≠ .fault →
    (∃ source target argument tag, i = .clearFault source target argument tag) ∨
      (∃ source target argument tag straps, i = .restart source target argument tag straps) ∨ ∃ supply, i = .powerOnReset supply
end

