-- ==== Sys2Proof/Laws/Arith.lean ====
section
/-! SUPPORT. The arithmetic words of 00_scope.md: what clamping, counting and the byte order do, once for every later proof. -/

namespace Sys2Proof.Machine

/-- A clamped value lies in its range. -/
theorem clampInt_mem {lo hi x : Int} (h : lo ≤ hi) : lo ≤ clampInt lo hi x ∧ clampInt lo hi x ≤ hi := by
  unfold clampInt; split <;> [skip; split] <;> omega

/-- Clamping as max and min. -/
theorem clampInt_eq_max_min {lo hi x : Int} (h : lo ≤ hi) : clampInt lo hi x = max lo (min hi x) := by
  unfold clampInt; split <;> [skip; split] <;> omega

/-- Clamping leaves a value in its range alone. -/
theorem clampInt_of_mem {lo hi x : Int} (h₁ : lo ≤ x) (h₂ : x ≤ hi) : clampInt lo hi x = x := by
  unfold clampInt; split <;> [skip; split] <;> omega

/-- Clamping keeps the order. -/
theorem clampInt_mono {lo hi x y : Int} (h : lo ≤ hi) (hxy : x ≤ y) : clampInt lo hi x ≤ clampInt lo hi y := by
  rw [clampInt_eq_max_min h, clampInt_eq_max_min h]; omega

/-- A clamped natural lies in its range. -/
theorem clampNat_mem {lo hi x : Nat} (h : lo ≤ hi) : lo ≤ clampNat lo hi x ∧ clampNat lo hi x ≤ hi := by
  unfold clampNat; split <;> [skip; split] <;> omega

/-- Clamping to 0 upward is a minimum. -/
theorem clampNat_zero (hi x : Nat) : clampNat 0 hi x = min hi x := by
  unfold clampNat; split <;> [skip; split] <;> omega

/-- A saturating count goes up by one, or stands at its end. -/
theorem countTo_eq_min {m n : Nat} (h : n ≤ m) : countTo m n = min m (n + 1) := by
  unfold countTo; split <;> omega

/-- A saturating count stays within its end. -/
theorem countTo_le (m n : Nat) : countTo m n ≤ m := by
  unfold countTo; split <;> omega

/-- A flag byte is a byte, and its bits are the flags. -/
theorem flagByte_lt (fs : List Bool) : flagByte fs < 2 ^ fs.length := by
  induction fs with
  | nil => simp [flagByte]
  | cons f fs ih =>
    simp only [flagByte, List.foldr_cons, List.length_cons] at *
    have : f.toNat ≤ 1 := Bool.toNat_le f
    omega

/-- A byte of a value is the value modulo 256. -/
@[simp] theorem byteOf_toNat (n : Nat) : (byteOf n).toNat = n % 256 := by simp [byteOf]

@[simp] theorem bytes2_length (n : Nat) : (bytes2 n).length = 2 := rfl
@[simp] theorem bytes4_length (n : Nat) : (bytes4 n).length = 4 := rfl
@[simp] theorem signedBytes2_length (x : Int) : (signedBytes2 x).length = 2 := rfl
@[simp] theorem signedBytes4_length (x : Int) : (signedBytes4 x).length = 4 := rfl

/-- A level field has four bytes. -/
@[simp] theorem levelBytes_length (x : Option Int) : (levelBytes x).length = 4 := by cases x <;> rfl

/-- A head field has two bytes. -/
@[simp] theorem headBytes_length (x : Option Int) : (headBytes x).length = 2 := by cases x <;> rfl

/-- Two bytes high byte first give the value back (R185). -/
theorem half_bytes2 (n : Nat) (h : n < 65536) (rest : List Byte) : half (bytes2 n ++ rest) 0 = n := by
  simp [half, byteAt, bytes2]; omega

/-- Four bytes high byte first give the value back (R185). -/
theorem word_bytes4 (n : Nat) (h : n < 4294967296) (rest : List Byte) : word (bytes4 n ++ rest) 0 = n := by
  simp [word, half, byteAt, bytes4]; omega

/-- The one payload length of a STATE (R187). -/
@[simp] theorem statePayload_length (f : StateFrame) : (statePayload f).length = 55 := by
  unfold statePayload
  repeat rw [List.length_append]
  repeat rw [bytes2_length]
  rw [signedBytes2_length, bytes4_length, bytes4_length, levelBytes_length, levelBytes_length]
  rfl

/-- The one payload length of a TIDE (R186). -/
@[simp] theorem tidePayload_length (r : TideRecord) : (tidePayload r).length = 10 := by
  simp only [tidePayload, List.length_append, List.length_cons, List.length_nil, bytes2_length, bytes4_length, headBytes_length]

end Sys2Proof.Machine
end

