-- ==== Sys2Proof/Laws/State.lean ====
section
/-! SUPPORT. One lemma for each field of each named update of the state: the field updated is the value given, every other field stands. -/

-- One declaration after another: with the large stacks of the check, a thread for each theorem of the package exceeds its memory limit.
set_option Elab.async false

namespace Sys2Proof.Machine.State

/-! ### withLoader -/

@[simp] theorem withLoader_loader (s : State) (x : Loader) : (s.withLoader x).loader = x := rfl
@[simp] theorem withLoader_position (s : State) (x : Loader) : (s.withLoader x).position = s.position := rfl
@[simp] theorem withLoader_level (s : State) (x : Loader) : (s.withLoader x).level = s.level := rfl
@[simp] theorem withLoader_tide (s : State) (x : Loader) : (s.withLoader x).tide = s.tide := rfl
@[simp] theorem withLoader_peers (s : State) (x : Loader) : (s.withLoader x).peers = s.peers := rfl
@[simp] theorem withLoader_order (s : State) (x : Loader) : (s.withLoader x).order = s.order := rfl
@[simp] theorem withLoader_target (s : State) (x : Loader) : (s.withLoader x).target = s.target := rfl
@[simp] theorem withLoader_grant (s : State) (x : Loader) : (s.withLoader x).grant = s.grant := rfl
@[simp] theorem withLoader_drive (s : State) (x : Loader) : (s.withLoader x).drive = s.drive := rfl
@[simp] theorem withLoader_plan (s : State) (x : Loader) : (s.withLoader x).plan = s.plan := rfl
@[simp] theorem withLoader_modeCtl (s : State) (x : Loader) : (s.withLoader x).modeCtl = s.modeCtl := rfl
@[simp] theorem withLoader_line (s : State) (x : Loader) : (s.withLoader x).line = s.line := rfl
@[simp] theorem withLoader_clocks (s : State) (x : Loader) : (s.withLoader x).clocks = s.clocks := rfl
@[simp] theorem withLoader_pending (s : State) (x : Loader) : (s.withLoader x).pending = s.pending := rfl

/-! ### withPosition -/

@[simp] theorem withPosition_loader (s : State) (x : Position) : (s.withPosition x).loader = s.loader := rfl
@[simp] theorem withPosition_position (s : State) (x : Position) : (s.withPosition x).position = x := rfl
@[simp] theorem withPosition_level (s : State) (x : Position) : (s.withPosition x).level = s.level := rfl
@[simp] theorem withPosition_tide (s : State) (x : Position) : (s.withPosition x).tide = s.tide := rfl
@[simp] theorem withPosition_peers (s : State) (x : Position) : (s.withPosition x).peers = s.peers := rfl
@[simp] theorem withPosition_order (s : State) (x : Position) : (s.withPosition x).order = s.order := rfl
@[simp] theorem withPosition_target (s : State) (x : Position) : (s.withPosition x).target = s.target := rfl
@[simp] theorem withPosition_grant (s : State) (x : Position) : (s.withPosition x).grant = s.grant := rfl
@[simp] theorem withPosition_drive (s : State) (x : Position) : (s.withPosition x).drive = s.drive := rfl
@[simp] theorem withPosition_plan (s : State) (x : Position) : (s.withPosition x).plan = s.plan := rfl
@[simp] theorem withPosition_modeCtl (s : State) (x : Position) : (s.withPosition x).modeCtl = s.modeCtl := rfl
@[simp] theorem withPosition_line (s : State) (x : Position) : (s.withPosition x).line = s.line := rfl
@[simp] theorem withPosition_clocks (s : State) (x : Position) : (s.withPosition x).clocks = s.clocks := rfl
@[simp] theorem withPosition_pending (s : State) (x : Position) : (s.withPosition x).pending = s.pending := rfl

/-! ### withLevel -/

@[simp] theorem withLevel_loader (s : State) (x : LevelUnit) : (s.withLevel x).loader = s.loader := rfl
@[simp] theorem withLevel_position (s : State) (x : LevelUnit) : (s.withLevel x).position = s.position := rfl
@[simp] theorem withLevel_level (s : State) (x : LevelUnit) : (s.withLevel x).level = x := rfl
@[simp] theorem withLevel_tide (s : State) (x : LevelUnit) : (s.withLevel x).tide = s.tide := rfl
@[simp] theorem withLevel_peers (s : State) (x : LevelUnit) : (s.withLevel x).peers = s.peers := rfl
@[simp] theorem withLevel_order (s : State) (x : LevelUnit) : (s.withLevel x).order = s.order := rfl
@[simp] theorem withLevel_target (s : State) (x : LevelUnit) : (s.withLevel x).target = s.target := rfl
@[simp] theorem withLevel_grant (s : State) (x : LevelUnit) : (s.withLevel x).grant = s.grant := rfl
@[simp] theorem withLevel_drive (s : State) (x : LevelUnit) : (s.withLevel x).drive = s.drive := rfl
@[simp] theorem withLevel_plan (s : State) (x : LevelUnit) : (s.withLevel x).plan = s.plan := rfl
@[simp] theorem withLevel_modeCtl (s : State) (x : LevelUnit) : (s.withLevel x).modeCtl = s.modeCtl := rfl
@[simp] theorem withLevel_line (s : State) (x : LevelUnit) : (s.withLevel x).line = s.line := rfl
@[simp] theorem withLevel_clocks (s : State) (x : LevelUnit) : (s.withLevel x).clocks = s.clocks := rfl
@[simp] theorem withLevel_pending (s : State) (x : LevelUnit) : (s.withLevel x).pending = s.pending := rfl

/-! ### withTide -/

@[simp] theorem withTide_loader (s : State) (x : Tide) : (s.withTide x).loader = s.loader := rfl
@[simp] theorem withTide_position (s : State) (x : Tide) : (s.withTide x).position = s.position := rfl
@[simp] theorem withTide_level (s : State) (x : Tide) : (s.withTide x).level = s.level := rfl
@[simp] theorem withTide_tide (s : State) (x : Tide) : (s.withTide x).tide = x := rfl
@[simp] theorem withTide_peers (s : State) (x : Tide) : (s.withTide x).peers = s.peers := rfl
@[simp] theorem withTide_order (s : State) (x : Tide) : (s.withTide x).order = s.order := rfl
@[simp] theorem withTide_target (s : State) (x : Tide) : (s.withTide x).target = s.target := rfl
@[simp] theorem withTide_grant (s : State) (x : Tide) : (s.withTide x).grant = s.grant := rfl
@[simp] theorem withTide_drive (s : State) (x : Tide) : (s.withTide x).drive = s.drive := rfl
@[simp] theorem withTide_plan (s : State) (x : Tide) : (s.withTide x).plan = s.plan := rfl
@[simp] theorem withTide_modeCtl (s : State) (x : Tide) : (s.withTide x).modeCtl = s.modeCtl := rfl
@[simp] theorem withTide_line (s : State) (x : Tide) : (s.withTide x).line = s.line := rfl
@[simp] theorem withTide_clocks (s : State) (x : Tide) : (s.withTide x).clocks = s.clocks := rfl
@[simp] theorem withTide_pending (s : State) (x : Tide) : (s.withTide x).pending = s.pending := rfl

/-! ### withPeers -/

@[simp] theorem withPeers_loader (s : State) (x : Peers) : (s.withPeers x).loader = s.loader := rfl
@[simp] theorem withPeers_position (s : State) (x : Peers) : (s.withPeers x).position = s.position := rfl
@[simp] theorem withPeers_level (s : State) (x : Peers) : (s.withPeers x).level = s.level := rfl
@[simp] theorem withPeers_tide (s : State) (x : Peers) : (s.withPeers x).tide = s.tide := rfl
@[simp] theorem withPeers_peers (s : State) (x : Peers) : (s.withPeers x).peers = x := rfl
@[simp] theorem withPeers_order (s : State) (x : Peers) : (s.withPeers x).order = s.order := rfl
@[simp] theorem withPeers_target (s : State) (x : Peers) : (s.withPeers x).target = s.target := rfl
@[simp] theorem withPeers_grant (s : State) (x : Peers) : (s.withPeers x).grant = s.grant := rfl
@[simp] theorem withPeers_drive (s : State) (x : Peers) : (s.withPeers x).drive = s.drive := rfl
@[simp] theorem withPeers_plan (s : State) (x : Peers) : (s.withPeers x).plan = s.plan := rfl
@[simp] theorem withPeers_modeCtl (s : State) (x : Peers) : (s.withPeers x).modeCtl = s.modeCtl := rfl
@[simp] theorem withPeers_line (s : State) (x : Peers) : (s.withPeers x).line = s.line := rfl
@[simp] theorem withPeers_clocks (s : State) (x : Peers) : (s.withPeers x).clocks = s.clocks := rfl
@[simp] theorem withPeers_pending (s : State) (x : Peers) : (s.withPeers x).pending = s.pending := rfl

/-! ### withOrder -/

@[simp] theorem withOrder_loader (s : State) (x : OrderUnit) : (s.withOrder x).loader = s.loader := rfl
@[simp] theorem withOrder_position (s : State) (x : OrderUnit) : (s.withOrder x).position = s.position := rfl
@[simp] theorem withOrder_level (s : State) (x : OrderUnit) : (s.withOrder x).level = s.level := rfl
@[simp] theorem withOrder_tide (s : State) (x : OrderUnit) : (s.withOrder x).tide = s.tide := rfl
@[simp] theorem withOrder_peers (s : State) (x : OrderUnit) : (s.withOrder x).peers = s.peers := rfl
@[simp] theorem withOrder_order (s : State) (x : OrderUnit) : (s.withOrder x).order = x := rfl
@[simp] theorem withOrder_target (s : State) (x : OrderUnit) : (s.withOrder x).target = s.target := rfl
@[simp] theorem withOrder_grant (s : State) (x : OrderUnit) : (s.withOrder x).grant = s.grant := rfl
@[simp] theorem withOrder_drive (s : State) (x : OrderUnit) : (s.withOrder x).drive = s.drive := rfl
@[simp] theorem withOrder_plan (s : State) (x : OrderUnit) : (s.withOrder x).plan = s.plan := rfl
@[simp] theorem withOrder_modeCtl (s : State) (x : OrderUnit) : (s.withOrder x).modeCtl = s.modeCtl := rfl
@[simp] theorem withOrder_line (s : State) (x : OrderUnit) : (s.withOrder x).line = s.line := rfl
@[simp] theorem withOrder_clocks (s : State) (x : OrderUnit) : (s.withOrder x).clocks = s.clocks := rfl
@[simp] theorem withOrder_pending (s : State) (x : OrderUnit) : (s.withOrder x).pending = s.pending := rfl

/-! ### withTarget -/

@[simp] theorem withTarget_loader (s : State) (x : Target) : (s.withTarget x).loader = s.loader := rfl
@[simp] theorem withTarget_position (s : State) (x : Target) : (s.withTarget x).position = s.position := rfl
@[simp] theorem withTarget_level (s : State) (x : Target) : (s.withTarget x).level = s.level := rfl
@[simp] theorem withTarget_tide (s : State) (x : Target) : (s.withTarget x).tide = s.tide := rfl
@[simp] theorem withTarget_peers (s : State) (x : Target) : (s.withTarget x).peers = s.peers := rfl
@[simp] theorem withTarget_order (s : State) (x : Target) : (s.withTarget x).order = s.order := rfl
@[simp] theorem withTarget_target (s : State) (x : Target) : (s.withTarget x).target = x := rfl
@[simp] theorem withTarget_grant (s : State) (x : Target) : (s.withTarget x).grant = s.grant := rfl
@[simp] theorem withTarget_drive (s : State) (x : Target) : (s.withTarget x).drive = s.drive := rfl
@[simp] theorem withTarget_plan (s : State) (x : Target) : (s.withTarget x).plan = s.plan := rfl
@[simp] theorem withTarget_modeCtl (s : State) (x : Target) : (s.withTarget x).modeCtl = s.modeCtl := rfl
@[simp] theorem withTarget_line (s : State) (x : Target) : (s.withTarget x).line = s.line := rfl
@[simp] theorem withTarget_clocks (s : State) (x : Target) : (s.withTarget x).clocks = s.clocks := rfl
@[simp] theorem withTarget_pending (s : State) (x : Target) : (s.withTarget x).pending = s.pending := rfl

/-! ### withGrant -/

@[simp] theorem withGrant_loader (s : State) (x : Grant) : (s.withGrant x).loader = s.loader := rfl
@[simp] theorem withGrant_position (s : State) (x : Grant) : (s.withGrant x).position = s.position := rfl
@[simp] theorem withGrant_level (s : State) (x : Grant) : (s.withGrant x).level = s.level := rfl
@[simp] theorem withGrant_tide (s : State) (x : Grant) : (s.withGrant x).tide = s.tide := rfl
@[simp] theorem withGrant_peers (s : State) (x : Grant) : (s.withGrant x).peers = s.peers := rfl
@[simp] theorem withGrant_order (s : State) (x : Grant) : (s.withGrant x).order = s.order := rfl
@[simp] theorem withGrant_target (s : State) (x : Grant) : (s.withGrant x).target = s.target := rfl
@[simp] theorem withGrant_grant (s : State) (x : Grant) : (s.withGrant x).grant = x := rfl
@[simp] theorem withGrant_drive (s : State) (x : Grant) : (s.withGrant x).drive = s.drive := rfl
@[simp] theorem withGrant_plan (s : State) (x : Grant) : (s.withGrant x).plan = s.plan := rfl
@[simp] theorem withGrant_modeCtl (s : State) (x : Grant) : (s.withGrant x).modeCtl = s.modeCtl := rfl
@[simp] theorem withGrant_line (s : State) (x : Grant) : (s.withGrant x).line = s.line := rfl
@[simp] theorem withGrant_clocks (s : State) (x : Grant) : (s.withGrant x).clocks = s.clocks := rfl
@[simp] theorem withGrant_pending (s : State) (x : Grant) : (s.withGrant x).pending = s.pending := rfl

/-! ### withDrive -/

@[simp] theorem withDrive_loader (s : State) (x : Drive) : (s.withDrive x).loader = s.loader := rfl
@[simp] theorem withDrive_position (s : State) (x : Drive) : (s.withDrive x).position = s.position := rfl
@[simp] theorem withDrive_level (s : State) (x : Drive) : (s.withDrive x).level = s.level := rfl
@[simp] theorem withDrive_tide (s : State) (x : Drive) : (s.withDrive x).tide = s.tide := rfl
@[simp] theorem withDrive_peers (s : State) (x : Drive) : (s.withDrive x).peers = s.peers := rfl
@[simp] theorem withDrive_order (s : State) (x : Drive) : (s.withDrive x).order = s.order := rfl
@[simp] theorem withDrive_target (s : State) (x : Drive) : (s.withDrive x).target = s.target := rfl
@[simp] theorem withDrive_grant (s : State) (x : Drive) : (s.withDrive x).grant = s.grant := rfl
@[simp] theorem withDrive_drive (s : State) (x : Drive) : (s.withDrive x).drive = x := rfl
@[simp] theorem withDrive_plan (s : State) (x : Drive) : (s.withDrive x).plan = s.plan := rfl
@[simp] theorem withDrive_modeCtl (s : State) (x : Drive) : (s.withDrive x).modeCtl = s.modeCtl := rfl
@[simp] theorem withDrive_line (s : State) (x : Drive) : (s.withDrive x).line = s.line := rfl
@[simp] theorem withDrive_clocks (s : State) (x : Drive) : (s.withDrive x).clocks = s.clocks := rfl
@[simp] theorem withDrive_pending (s : State) (x : Drive) : (s.withDrive x).pending = s.pending := rfl

/-! ### withPlan -/

@[simp] theorem withPlan_loader (s : State) (x : Plan) : (s.withPlan x).loader = s.loader := rfl
@[simp] theorem withPlan_position (s : State) (x : Plan) : (s.withPlan x).position = s.position := rfl
@[simp] theorem withPlan_level (s : State) (x : Plan) : (s.withPlan x).level = s.level := rfl
@[simp] theorem withPlan_tide (s : State) (x : Plan) : (s.withPlan x).tide = s.tide := rfl
@[simp] theorem withPlan_peers (s : State) (x : Plan) : (s.withPlan x).peers = s.peers := rfl
@[simp] theorem withPlan_order (s : State) (x : Plan) : (s.withPlan x).order = s.order := rfl
@[simp] theorem withPlan_target (s : State) (x : Plan) : (s.withPlan x).target = s.target := rfl
@[simp] theorem withPlan_grant (s : State) (x : Plan) : (s.withPlan x).grant = s.grant := rfl
@[simp] theorem withPlan_drive (s : State) (x : Plan) : (s.withPlan x).drive = s.drive := rfl
@[simp] theorem withPlan_plan (s : State) (x : Plan) : (s.withPlan x).plan = x := rfl
@[simp] theorem withPlan_modeCtl (s : State) (x : Plan) : (s.withPlan x).modeCtl = s.modeCtl := rfl
@[simp] theorem withPlan_line (s : State) (x : Plan) : (s.withPlan x).line = s.line := rfl
@[simp] theorem withPlan_clocks (s : State) (x : Plan) : (s.withPlan x).clocks = s.clocks := rfl
@[simp] theorem withPlan_pending (s : State) (x : Plan) : (s.withPlan x).pending = s.pending := rfl

/-! ### withModeCtl -/

@[simp] theorem withModeCtl_loader (s : State) (x : ModeCtl) : (s.withModeCtl x).loader = s.loader := rfl
@[simp] theorem withModeCtl_position (s : State) (x : ModeCtl) : (s.withModeCtl x).position = s.position := rfl
@[simp] theorem withModeCtl_level (s : State) (x : ModeCtl) : (s.withModeCtl x).level = s.level := rfl
@[simp] theorem withModeCtl_tide (s : State) (x : ModeCtl) : (s.withModeCtl x).tide = s.tide := rfl
@[simp] theorem withModeCtl_peers (s : State) (x : ModeCtl) : (s.withModeCtl x).peers = s.peers := rfl
@[simp] theorem withModeCtl_order (s : State) (x : ModeCtl) : (s.withModeCtl x).order = s.order := rfl
@[simp] theorem withModeCtl_target (s : State) (x : ModeCtl) : (s.withModeCtl x).target = s.target := rfl
@[simp] theorem withModeCtl_grant (s : State) (x : ModeCtl) : (s.withModeCtl x).grant = s.grant := rfl
@[simp] theorem withModeCtl_drive (s : State) (x : ModeCtl) : (s.withModeCtl x).drive = s.drive := rfl
@[simp] theorem withModeCtl_plan (s : State) (x : ModeCtl) : (s.withModeCtl x).plan = s.plan := rfl
@[simp] theorem withModeCtl_modeCtl (s : State) (x : ModeCtl) : (s.withModeCtl x).modeCtl = x := rfl
@[simp] theorem withModeCtl_line (s : State) (x : ModeCtl) : (s.withModeCtl x).line = s.line := rfl
@[simp] theorem withModeCtl_clocks (s : State) (x : ModeCtl) : (s.withModeCtl x).clocks = s.clocks := rfl
@[simp] theorem withModeCtl_pending (s : State) (x : ModeCtl) : (s.withModeCtl x).pending = s.pending := rfl

/-! ### withLine -/

@[simp] theorem withLine_loader (s : State) (x : Line) : (s.withLine x).loader = s.loader := rfl
@[simp] theorem withLine_position (s : State) (x : Line) : (s.withLine x).position = s.position := rfl
@[simp] theorem withLine_level (s : State) (x : Line) : (s.withLine x).level = s.level := rfl
@[simp] theorem withLine_tide (s : State) (x : Line) : (s.withLine x).tide = s.tide := rfl
@[simp] theorem withLine_peers (s : State) (x : Line) : (s.withLine x).peers = s.peers := rfl
@[simp] theorem withLine_order (s : State) (x : Line) : (s.withLine x).order = s.order := rfl
@[simp] theorem withLine_target (s : State) (x : Line) : (s.withLine x).target = s.target := rfl
@[simp] theorem withLine_grant (s : State) (x : Line) : (s.withLine x).grant = s.grant := rfl
@[simp] theorem withLine_drive (s : State) (x : Line) : (s.withLine x).drive = s.drive := rfl
@[simp] theorem withLine_plan (s : State) (x : Line) : (s.withLine x).plan = s.plan := rfl
@[simp] theorem withLine_modeCtl (s : State) (x : Line) : (s.withLine x).modeCtl = s.modeCtl := rfl
@[simp] theorem withLine_line (s : State) (x : Line) : (s.withLine x).line = x := rfl
@[simp] theorem withLine_clocks (s : State) (x : Line) : (s.withLine x).clocks = s.clocks := rfl
@[simp] theorem withLine_pending (s : State) (x : Line) : (s.withLine x).pending = s.pending := rfl

/-! ### withClocks -/

@[simp] theorem withClocks_loader (s : State) (x : Clocks) : (s.withClocks x).loader = s.loader := rfl
@[simp] theorem withClocks_position (s : State) (x : Clocks) : (s.withClocks x).position = s.position := rfl
@[simp] theorem withClocks_level (s : State) (x : Clocks) : (s.withClocks x).level = s.level := rfl
@[simp] theorem withClocks_tide (s : State) (x : Clocks) : (s.withClocks x).tide = s.tide := rfl
@[simp] theorem withClocks_peers (s : State) (x : Clocks) : (s.withClocks x).peers = s.peers := rfl
@[simp] theorem withClocks_order (s : State) (x : Clocks) : (s.withClocks x).order = s.order := rfl
@[simp] theorem withClocks_target (s : State) (x : Clocks) : (s.withClocks x).target = s.target := rfl
@[simp] theorem withClocks_grant (s : State) (x : Clocks) : (s.withClocks x).grant = s.grant := rfl
@[simp] theorem withClocks_drive (s : State) (x : Clocks) : (s.withClocks x).drive = s.drive := rfl
@[simp] theorem withClocks_plan (s : State) (x : Clocks) : (s.withClocks x).plan = s.plan := rfl
@[simp] theorem withClocks_modeCtl (s : State) (x : Clocks) : (s.withClocks x).modeCtl = s.modeCtl := rfl
@[simp] theorem withClocks_line (s : State) (x : Clocks) : (s.withClocks x).line = s.line := rfl
@[simp] theorem withClocks_clocks (s : State) (x : Clocks) : (s.withClocks x).clocks = x := rfl
@[simp] theorem withClocks_pending (s : State) (x : Clocks) : (s.withClocks x).pending = s.pending := rfl

/-! ### withPending -/

@[simp] theorem withPending_loader (s : State) (x : List Instr) : (s.withPending x).loader = s.loader := rfl
@[simp] theorem withPending_position (s : State) (x : List Instr) : (s.withPending x).position = s.position := rfl
@[simp] theorem withPending_level (s : State) (x : List Instr) : (s.withPending x).level = s.level := rfl
@[simp] theorem withPending_tide (s : State) (x : List Instr) : (s.withPending x).tide = s.tide := rfl
@[simp] theorem withPending_peers (s : State) (x : List Instr) : (s.withPending x).peers = s.peers := rfl
@[simp] theorem withPending_order (s : State) (x : List Instr) : (s.withPending x).order = s.order := rfl
@[simp] theorem withPending_target (s : State) (x : List Instr) : (s.withPending x).target = s.target := rfl
@[simp] theorem withPending_grant (s : State) (x : List Instr) : (s.withPending x).grant = s.grant := rfl
@[simp] theorem withPending_drive (s : State) (x : List Instr) : (s.withPending x).drive = s.drive := rfl
@[simp] theorem withPending_plan (s : State) (x : List Instr) : (s.withPending x).plan = s.plan := rfl
@[simp] theorem withPending_modeCtl (s : State) (x : List Instr) : (s.withPending x).modeCtl = s.modeCtl := rfl
@[simp] theorem withPending_line (s : State) (x : List Instr) : (s.withPending x).line = s.line := rfl
@[simp] theorem withPending_clocks (s : State) (x : List Instr) : (s.withPending x).clocks = s.clocks := rfl
@[simp] theorem withPending_pending (s : State) (x : List Instr) : (s.withPending x).pending = x := rfl

end Sys2Proof.Machine.State
end

