-- ==== Sys2Proof/Laws/Frames.lean ====
section
/-! SUPPORT. What each shared operation leaves alone: one lemma for each operation and each block of the state that it does not touch. The
blocks an operation has no lemma for are those it may change. -/

-- One declaration after another: with the large stacks of the check, a thread for each theorem of the package exceeds its memory limit.
set_option Elab.async false

namespace Sys2Proof.Machine

@[simp] theorem elapse_level (dt : Nat) (s : State) : (elapse dt s).level = s.level := by unfold elapse; split <;> simp
@[simp] theorem elapse_tide (dt : Nat) (s : State) : (elapse dt s).tide = s.tide := by unfold elapse; split <;> simp
@[simp] theorem elapse_target (dt : Nat) (s : State) : (elapse dt s).target = s.target := by unfold elapse; split <;> simp
@[simp] theorem elapse_plan (dt : Nat) (s : State) : (elapse dt s).plan = s.plan := by unfold elapse; split <;> simp
@[simp] theorem elapse_pending (dt : Nat) (s : State) : (elapse dt s).pending = s.pending := by unfold elapse; split <;> simp

@[simp] theorem runOn_level (age limit : Nat) (s : State) : (runOn age limit s).level = s.level := by simp [runOn]
@[simp] theorem runOn_tide (age limit : Nat) (s : State) : (runOn age limit s).tide = s.tide := by simp [runOn]
@[simp] theorem runOn_target (age limit : Nat) (s : State) : (runOn age limit s).target = s.target := by simp [runOn]
@[simp] theorem runOn_plan (age limit : Nat) (s : State) : (runOn age limit s).plan = s.plan := by simp [runOn]
@[simp] theorem runOn_pending (age limit : Nat) (s : State) : (runOn age limit s).pending = s.pending := by simp [runOn]

@[simp] theorem hearLine_loader (coming : List LineChange) (s : State) : (hearLine coming s).loader = s.loader := rfl
@[simp] theorem hearLine_position (coming : List LineChange) (s : State) : (hearLine coming s).position = s.position := rfl
@[simp] theorem hearLine_level (coming : List LineChange) (s : State) : (hearLine coming s).level = s.level := rfl
@[simp] theorem hearLine_tide (coming : List LineChange) (s : State) : (hearLine coming s).tide = s.tide := rfl
@[simp] theorem hearLine_peers (coming : List LineChange) (s : State) : (hearLine coming s).peers = s.peers := rfl
@[simp] theorem hearLine_order (coming : List LineChange) (s : State) : (hearLine coming s).order = s.order := rfl
@[simp] theorem hearLine_target (coming : List LineChange) (s : State) : (hearLine coming s).target = s.target := rfl
@[simp] theorem hearLine_grant (coming : List LineChange) (s : State) : (hearLine coming s).grant = s.grant := rfl
@[simp] theorem hearLine_drive (coming : List LineChange) (s : State) : (hearLine coming s).drive = s.drive := rfl
@[simp] theorem hearLine_plan (coming : List LineChange) (s : State) : (hearLine coming s).plan = s.plan := rfl
@[simp] theorem hearLine_modeCtl (coming : List LineChange) (s : State) : (hearLine coming s).modeCtl = s.modeCtl := rfl
@[simp] theorem hearLine_clocks (coming : List LineChange) (s : State) : (hearLine coming s).clocks = s.clocks := rfl
@[simp] theorem hearLine_pending (coming : List LineChange) (s : State) : (hearLine coming s).pending = s.pending := rfl

@[simp] theorem latchKinds_loader (ks : List FaultKind) (s : State) : (latchKinds ks s).loader = s.loader := rfl
@[simp] theorem latchKinds_position (ks : List FaultKind) (s : State) : (latchKinds ks s).position = s.position := rfl
@[simp] theorem latchKinds_level (ks : List FaultKind) (s : State) : (latchKinds ks s).level = s.level := rfl
@[simp] theorem latchKinds_tide (ks : List FaultKind) (s : State) : (latchKinds ks s).tide = s.tide := rfl
@[simp] theorem latchKinds_peers (ks : List FaultKind) (s : State) : (latchKinds ks s).peers = s.peers := rfl
@[simp] theorem latchKinds_order (ks : List FaultKind) (s : State) : (latchKinds ks s).order = s.order := rfl
@[simp] theorem latchKinds_target (ks : List FaultKind) (s : State) : (latchKinds ks s).target = s.target := rfl
@[simp] theorem latchKinds_grant (ks : List FaultKind) (s : State) : (latchKinds ks s).grant = s.grant := rfl
@[simp] theorem latchKinds_drive (ks : List FaultKind) (s : State) : (latchKinds ks s).drive = s.drive := rfl
@[simp] theorem latchKinds_plan (ks : List FaultKind) (s : State) : (latchKinds ks s).plan = s.plan := rfl
@[simp] theorem latchKinds_line (ks : List FaultKind) (s : State) : (latchKinds ks s).line = s.line := rfl
@[simp] theorem latchKinds_clocks (ks : List FaultKind) (s : State) : (latchKinds ks s).clocks = s.clocks := rfl
@[simp] theorem latchKinds_pending (ks : List FaultKind) (s : State) : (latchKinds ks s).pending = s.pending := rfl

@[simp] theorem clearKinds_loader (ks : List FaultKind) (s : State) : (clearKinds ks s).loader = s.loader := rfl
@[simp] theorem clearKinds_position (ks : List FaultKind) (s : State) : (clearKinds ks s).position = s.position := rfl
@[simp] theorem clearKinds_level (ks : List FaultKind) (s : State) : (clearKinds ks s).level = s.level := rfl
@[simp] theorem clearKinds_tide (ks : List FaultKind) (s : State) : (clearKinds ks s).tide = s.tide := rfl
@[simp] theorem clearKinds_peers (ks : List FaultKind) (s : State) : (clearKinds ks s).peers = s.peers := rfl
@[simp] theorem clearKinds_order (ks : List FaultKind) (s : State) : (clearKinds ks s).order = s.order := rfl
@[simp] theorem clearKinds_target (ks : List FaultKind) (s : State) : (clearKinds ks s).target = s.target := rfl
@[simp] theorem clearKinds_grant (ks : List FaultKind) (s : State) : (clearKinds ks s).grant = s.grant := rfl
@[simp] theorem clearKinds_drive (ks : List FaultKind) (s : State) : (clearKinds ks s).drive = s.drive := rfl
@[simp] theorem clearKinds_plan (ks : List FaultKind) (s : State) : (clearKinds ks s).plan = s.plan := rfl
@[simp] theorem clearKinds_line (ks : List FaultKind) (s : State) : (clearKinds ks s).line = s.line := rfl
@[simp] theorem clearKinds_clocks (ks : List FaultKind) (s : State) : (clearKinds ks s).clocks = s.clocks := rfl
@[simp] theorem clearKinds_pending (ks : List FaultKind) (s : State) : (clearKinds ks s).pending = s.pending := rfl

@[simp] theorem unlatch_loader (kept : FaultSet) (s : State) : (unlatch kept s).loader = s.loader := rfl
@[simp] theorem unlatch_position (kept : FaultSet) (s : State) : (unlatch kept s).position = s.position := rfl
@[simp] theorem unlatch_level (kept : FaultSet) (s : State) : (unlatch kept s).level = s.level := rfl
@[simp] theorem unlatch_tide (kept : FaultSet) (s : State) : (unlatch kept s).tide = s.tide := rfl
@[simp] theorem unlatch_peers (kept : FaultSet) (s : State) : (unlatch kept s).peers = s.peers := rfl
@[simp] theorem unlatch_order (kept : FaultSet) (s : State) : (unlatch kept s).order = s.order := rfl
@[simp] theorem unlatch_target (kept : FaultSet) (s : State) : (unlatch kept s).target = s.target := rfl
@[simp] theorem unlatch_grant (kept : FaultSet) (s : State) : (unlatch kept s).grant = s.grant := rfl
@[simp] theorem unlatch_drive (kept : FaultSet) (s : State) : (unlatch kept s).drive = s.drive := rfl
@[simp] theorem unlatch_plan (kept : FaultSet) (s : State) : (unlatch kept s).plan = s.plan := rfl
@[simp] theorem unlatch_line (kept : FaultSet) (s : State) : (unlatch kept s).line = s.line := rfl
@[simp] theorem unlatch_clocks (kept : FaultSet) (s : State) : (unlatch kept s).clocks = s.clocks := rfl
@[simp] theorem unlatch_pending (kept : FaultSet) (s : State) : (unlatch kept s).pending = s.pending := rfl

@[simp] theorem setpointToOpening_loader (s : State) : (setpointToOpening s).loader = s.loader := rfl
@[simp] theorem setpointToOpening_position (s : State) : (setpointToOpening s).position = s.position := rfl
@[simp] theorem setpointToOpening_level (s : State) : (setpointToOpening s).level = s.level := rfl
@[simp] theorem setpointToOpening_tide (s : State) : (setpointToOpening s).tide = s.tide := rfl
@[simp] theorem setpointToOpening_peers (s : State) : (setpointToOpening s).peers = s.peers := rfl
@[simp] theorem setpointToOpening_order (s : State) : (setpointToOpening s).order = s.order := rfl
@[simp] theorem setpointToOpening_target (s : State) : (setpointToOpening s).target = s.target := rfl
@[simp] theorem setpointToOpening_grant (s : State) : (setpointToOpening s).grant = s.grant := rfl
@[simp] theorem setpointToOpening_plan (s : State) : (setpointToOpening s).plan = s.plan := rfl
@[simp] theorem setpointToOpening_modeCtl (s : State) : (setpointToOpening s).modeCtl = s.modeCtl := rfl
@[simp] theorem setpointToOpening_line (s : State) : (setpointToOpening s).line = s.line := rfl
@[simp] theorem setpointToOpening_clocks (s : State) : (setpointToOpening s).clocks = s.clocks := rfl
@[simp] theorem setpointToOpening_pending (s : State) : (setpointToOpening s).pending = s.pending := rfl

@[simp] theorem setMark_loader (s : State) : (setMark s).loader = s.loader := rfl
@[simp] theorem setMark_position (s : State) : (setMark s).position = s.position := rfl
@[simp] theorem setMark_level (s : State) : (setMark s).level = s.level := rfl
@[simp] theorem setMark_tide (s : State) : (setMark s).tide = s.tide := rfl
@[simp] theorem setMark_peers (s : State) : (setMark s).peers = s.peers := rfl
@[simp] theorem setMark_order (s : State) : (setMark s).order = s.order := rfl
@[simp] theorem setMark_target (s : State) : (setMark s).target = s.target := rfl
@[simp] theorem setMark_grant (s : State) : (setMark s).grant = s.grant := rfl
@[simp] theorem setMark_drive (s : State) : (setMark s).drive = s.drive := rfl
@[simp] theorem setMark_plan (s : State) : (setMark s).plan = s.plan := rfl
@[simp] theorem setMark_modeCtl (s : State) : (setMark s).modeCtl = s.modeCtl := rfl
@[simp] theorem setMark_clocks (s : State) : (setMark s).clocks = s.clocks := rfl
@[simp] theorem setMark_pending (s : State) : (setMark s).pending = s.pending := rfl
@[simp] theorem setMark_line (s : State) : (setMark s).line = { s.line with mark := true } := rfl

/-- Nothing happened to the line, or the mark was set (R43). -/
abbrev MarkOnly (l l' : Line) : Prop := l' = l ∨ l' = { l with mark := true }

theorem MarkOnly.trans {a b c : Line} (h : MarkOnly a b) (k : MarkOnly b c) : MarkOnly a c := by
  rcases h with rfl | rfl <;> rcases k with rfl | rfl <;> first | exact .inl rfl | exact .inr rfl

@[simp] theorem standStill_loader (s : State) : (standStill s).loader = s.loader := by unfold standStill; split <;> simp
@[simp] theorem standStill_position (s : State) : (standStill s).position = s.position := by unfold standStill; split <;> simp
@[simp] theorem standStill_level (s : State) : (standStill s).level = s.level := by unfold standStill; split <;> simp
@[simp] theorem standStill_tide (s : State) : (standStill s).tide = s.tide := by unfold standStill; split <;> simp
@[simp] theorem standStill_peers (s : State) : (standStill s).peers = s.peers := by unfold standStill; split <;> simp
@[simp] theorem standStill_order (s : State) : (standStill s).order = s.order := by unfold standStill; split <;> simp
@[simp] theorem standStill_target (s : State) : (standStill s).target = s.target := by unfold standStill; split <;> simp
@[simp] theorem standStill_plan (s : State) : (standStill s).plan = s.plan := by unfold standStill; split <;> simp
@[simp] theorem standStill_line (s : State) : (standStill s).line = s.line := by unfold standStill; split <;> simp
@[simp] theorem standStill_clocks (s : State) : (standStill s).clocks = s.clocks := by unfold standStill; split <;> simp
@[simp] theorem standStill_pending (s : State) : (standStill s).pending = s.pending := by unfold standStill; split <;> simp

@[simp] theorem enterMoving_loader (s : State) : (enterMoving s).loader = s.loader := rfl
@[simp] theorem enterMoving_position (s : State) : (enterMoving s).position = s.position := rfl
@[simp] theorem enterMoving_level (s : State) : (enterMoving s).level = s.level := rfl
@[simp] theorem enterMoving_tide (s : State) : (enterMoving s).tide = s.tide := rfl
@[simp] theorem enterMoving_peers (s : State) : (enterMoving s).peers = s.peers := rfl
@[simp] theorem enterMoving_order (s : State) : (enterMoving s).order = s.order := rfl
@[simp] theorem enterMoving_target (s : State) : (enterMoving s).target = s.target := rfl
@[simp] theorem enterMoving_plan (s : State) : (enterMoving s).plan = s.plan := rfl
@[simp] theorem enterMoving_modeCtl (s : State) : (enterMoving s).modeCtl = s.modeCtl := rfl
@[simp] theorem enterMoving_line (s : State) : (enterMoving s).line = s.line := rfl
@[simp] theorem enterMoving_clocks (s : State) : (enterMoving s).clocks = s.clocks := rfl
@[simp] theorem enterMoving_pending (s : State) : (enterMoving s).pending = s.pending := rfl

@[simp] theorem enterWarn_loader (kind : MoveKind) (lead : Nat) (s : State) : (enterWarn kind lead s).loader = s.loader := rfl
@[simp] theorem enterWarn_position (kind : MoveKind) (lead : Nat) (s : State) : (enterWarn kind lead s).position = s.position := rfl
@[simp] theorem enterWarn_level (kind : MoveKind) (lead : Nat) (s : State) : (enterWarn kind lead s).level = s.level := rfl
@[simp] theorem enterWarn_tide (kind : MoveKind) (lead : Nat) (s : State) : (enterWarn kind lead s).tide = s.tide := rfl
@[simp] theorem enterWarn_peers (kind : MoveKind) (lead : Nat) (s : State) : (enterWarn kind lead s).peers = s.peers := rfl
@[simp] theorem enterWarn_order (kind : MoveKind) (lead : Nat) (s : State) : (enterWarn kind lead s).order = s.order := rfl
@[simp] theorem enterWarn_target (kind : MoveKind) (lead : Nat) (s : State) : (enterWarn kind lead s).target = s.target := rfl
@[simp] theorem enterWarn_drive (kind : MoveKind) (lead : Nat) (s : State) : (enterWarn kind lead s).drive = s.drive := rfl
@[simp] theorem enterWarn_plan (kind : MoveKind) (lead : Nat) (s : State) : (enterWarn kind lead s).plan = s.plan := rfl
@[simp] theorem enterWarn_modeCtl (kind : MoveKind) (lead : Nat) (s : State) : (enterWarn kind lead s).modeCtl = s.modeCtl := rfl
@[simp] theorem enterWarn_line (kind : MoveKind) (lead : Nat) (s : State) : (enterWarn kind lead s).line = s.line := rfl
@[simp] theorem enterWarn_clocks (kind : MoveKind) (lead : Nat) (s : State) : (enterWarn kind lead s).clocks = s.clocks := rfl
@[simp] theorem enterWarn_pending (kind : MoveKind) (lead : Nat) (s : State) : (enterWarn kind lead s).pending = s.pending := rfl

@[simp] theorem setLimited_loader (b : Bool) (s : State) : (setLimited b s).loader = s.loader := rfl
@[simp] theorem setLimited_position (b : Bool) (s : State) : (setLimited b s).position = s.position := rfl
@[simp] theorem setLimited_level (b : Bool) (s : State) : (setLimited b s).level = s.level := rfl
@[simp] theorem setLimited_tide (b : Bool) (s : State) : (setLimited b s).tide = s.tide := rfl
@[simp] theorem setLimited_peers (b : Bool) (s : State) : (setLimited b s).peers = s.peers := rfl
@[simp] theorem setLimited_order (b : Bool) (s : State) : (setLimited b s).order = s.order := rfl
@[simp] theorem setLimited_grant (b : Bool) (s : State) : (setLimited b s).grant = s.grant := rfl
@[simp] theorem setLimited_drive (b : Bool) (s : State) : (setLimited b s).drive = s.drive := rfl
@[simp] theorem setLimited_plan (b : Bool) (s : State) : (setLimited b s).plan = s.plan := rfl
@[simp] theorem setLimited_modeCtl (b : Bool) (s : State) : (setLimited b s).modeCtl = s.modeCtl := rfl
@[simp] theorem setLimited_line (b : Bool) (s : State) : (setLimited b s).line = s.line := rfl
@[simp] theorem setLimited_clocks (b : Bool) (s : State) : (setLimited b s).clocks = s.clocks := rfl
@[simp] theorem setLimited_pending (b : Bool) (s : State) : (setLimited b s).pending = s.pending := rfl

@[simp] theorem haltStop_loader (s : State) : (haltStop s).loader = s.loader := by unfold haltStop; split <;> simp
@[simp] theorem haltStop_position (s : State) : (haltStop s).position = s.position := by unfold haltStop; split <;> simp
@[simp] theorem haltStop_level (s : State) : (haltStop s).level = s.level := by unfold haltStop; split <;> simp
@[simp] theorem haltStop_tide (s : State) : (haltStop s).tide = s.tide := by unfold haltStop; split <;> simp
@[simp] theorem haltStop_peers (s : State) : (haltStop s).peers = s.peers := by unfold haltStop; split <;> simp
@[simp] theorem haltStop_order (s : State) : (haltStop s).order = s.order := by unfold haltStop; split <;> simp
@[simp] theorem haltStop_target (s : State) : (haltStop s).target = s.target := by unfold haltStop; split <;> simp
@[simp] theorem haltStop_plan (s : State) : (haltStop s).plan = s.plan := by unfold haltStop; split <;> simp
@[simp] theorem haltStop_line (s : State) : (haltStop s).line = s.line := by unfold haltStop; split <;> simp
@[simp] theorem haltStop_clocks (s : State) : (haltStop s).clocks = s.clocks := by unfold haltStop; split <;> simp
@[simp] theorem haltStop_pending (s : State) : (haltStop s).pending = s.pending := by unfold haltStop; split <;> simp

@[simp] theorem claimAtTransition_loader (new : Mode) (s : State) : (claimAtTransition new s).loader = s.loader := by unfold claimAtTransition; (repeat' split) <;> simp
@[simp] theorem claimAtTransition_position (new : Mode) (s : State) : (claimAtTransition new s).position = s.position := by unfold claimAtTransition; (repeat' split) <;> simp
@[simp] theorem claimAtTransition_level (new : Mode) (s : State) : (claimAtTransition new s).level = s.level := by unfold claimAtTransition; (repeat' split) <;> simp
@[simp] theorem claimAtTransition_tide (new : Mode) (s : State) : (claimAtTransition new s).tide = s.tide := by unfold claimAtTransition; (repeat' split) <;> simp
@[simp] theorem claimAtTransition_peers (new : Mode) (s : State) : (claimAtTransition new s).peers = s.peers := by unfold claimAtTransition; (repeat' split) <;> simp
@[simp] theorem claimAtTransition_order (new : Mode) (s : State) : (claimAtTransition new s).order = s.order := by unfold claimAtTransition; (repeat' split) <;> simp
@[simp] theorem claimAtTransition_plan (new : Mode) (s : State) : (claimAtTransition new s).plan = s.plan := by unfold claimAtTransition; (repeat' split) <;> simp
@[simp] theorem claimAtTransition_line (new : Mode) (s : State) : (claimAtTransition new s).line = s.line := by unfold claimAtTransition; (repeat' split) <;> simp
@[simp] theorem claimAtTransition_clocks (new : Mode) (s : State) : (claimAtTransition new s).clocks = s.clocks := by unfold claimAtTransition; (repeat' split) <;> simp
@[simp] theorem claimAtTransition_pending (new : Mode) (s : State) : (claimAtTransition new s).pending = s.pending := by unfold claimAtTransition; (repeat' split) <;> simp

@[simp] theorem endPlan_loader (new : PlanState) (s : State) : (endPlan new s).loader = s.loader := rfl
@[simp] theorem endPlan_position (new : PlanState) (s : State) : (endPlan new s).position = s.position := rfl
@[simp] theorem endPlan_level (new : PlanState) (s : State) : (endPlan new s).level = s.level := rfl
@[simp] theorem endPlan_tide (new : PlanState) (s : State) : (endPlan new s).tide = s.tide := rfl
@[simp] theorem endPlan_peers (new : PlanState) (s : State) : (endPlan new s).peers = s.peers := rfl
@[simp] theorem endPlan_order (new : PlanState) (s : State) : (endPlan new s).order = s.order := rfl
@[simp] theorem endPlan_grant (new : PlanState) (s : State) : (endPlan new s).grant = s.grant := rfl
@[simp] theorem endPlan_drive (new : PlanState) (s : State) : (endPlan new s).drive = s.drive := rfl
@[simp] theorem endPlan_modeCtl (new : PlanState) (s : State) : (endPlan new s).modeCtl = s.modeCtl := rfl
@[simp] theorem endPlan_line (new : PlanState) (s : State) : (endPlan new s).line = s.line := rfl
@[simp] theorem endPlan_clocks (new : PlanState) (s : State) : (endPlan new s).clocks = s.clocks := rfl
@[simp] theorem endPlan_pending (new : PlanState) (s : State) : (endPlan new s).pending = s.pending := rfl

@[simp] theorem failPlan_loader (s : State) : (failPlan s).loader = s.loader := rfl
@[simp] theorem failPlan_position (s : State) : (failPlan s).position = s.position := rfl
@[simp] theorem failPlan_level (s : State) : (failPlan s).level = s.level := rfl
@[simp] theorem failPlan_tide (s : State) : (failPlan s).tide = s.tide := rfl
@[simp] theorem failPlan_peers (s : State) : (failPlan s).peers = s.peers := rfl
@[simp] theorem failPlan_order (s : State) : (failPlan s).order = s.order := rfl
@[simp] theorem failPlan_grant (s : State) : (failPlan s).grant = s.grant := rfl
@[simp] theorem failPlan_drive (s : State) : (failPlan s).drive = s.drive := rfl
@[simp] theorem failPlan_line (s : State) : (failPlan s).line = s.line := rfl
@[simp] theorem failPlan_clocks (s : State) : (failPlan s).clocks = s.clocks := rfl
@[simp] theorem failPlan_pending (s : State) : (failPlan s).pending = s.pending := rfl

@[simp] theorem abandonPlan_loader (s : State) : (abandonPlan s).loader = s.loader := by unfold abandonPlan; split <;> simp
@[simp] theorem abandonPlan_position (s : State) : (abandonPlan s).position = s.position := by unfold abandonPlan; split <;> simp
@[simp] theorem abandonPlan_level (s : State) : (abandonPlan s).level = s.level := by unfold abandonPlan; split <;> simp
@[simp] theorem abandonPlan_tide (s : State) : (abandonPlan s).tide = s.tide := by unfold abandonPlan; split <;> simp
@[simp] theorem abandonPlan_peers (s : State) : (abandonPlan s).peers = s.peers := by unfold abandonPlan; split <;> simp
@[simp] theorem abandonPlan_order (s : State) : (abandonPlan s).order = s.order := by unfold abandonPlan; split <;> simp
@[simp] theorem abandonPlan_grant (s : State) : (abandonPlan s).grant = s.grant := by unfold abandonPlan; split <;> simp
@[simp] theorem abandonPlan_drive (s : State) : (abandonPlan s).drive = s.drive := by unfold abandonPlan; split <;> simp
@[simp] theorem abandonPlan_modeCtl (s : State) : (abandonPlan s).modeCtl = s.modeCtl := by unfold abandonPlan; split <;> simp
@[simp] theorem abandonPlan_line (s : State) : (abandonPlan s).line = s.line := by unfold abandonPlan; split <;> simp
@[simp] theorem abandonPlan_clocks (s : State) : (abandonPlan s).clocks = s.clocks := by unfold abandonPlan; split <;> simp
@[simp] theorem abandonPlan_pending (s : State) : (abandonPlan s).pending = s.pending := by unfold abandonPlan; split <;> simp

@[simp] theorem refill_loader (s : State) : (refill s).loader = s.loader := by unfold refill; (repeat' split) <;> simp
@[simp] theorem refill_position (s : State) : (refill s).position = s.position := by unfold refill; (repeat' split) <;> simp
@[simp] theorem refill_level (s : State) : (refill s).level = s.level := by unfold refill; (repeat' split) <;> simp
@[simp] theorem refill_tide (s : State) : (refill s).tide = s.tide := by unfold refill; (repeat' split) <;> simp
@[simp] theorem refill_peers (s : State) : (refill s).peers = s.peers := by unfold refill; (repeat' split) <;> simp
@[simp] theorem refill_order (s : State) : (refill s).order = s.order := by unfold refill; (repeat' split) <;> simp
@[simp] theorem refill_grant (s : State) : (refill s).grant = s.grant := by unfold refill; (repeat' split) <;> simp
@[simp] theorem refill_drive (s : State) : (refill s).drive = s.drive := by unfold refill; (repeat' split) <;> simp
@[simp] theorem refill_line (s : State) : (refill s).line = s.line := by unfold refill; (repeat' split) <;> simp
@[simp] theorem refill_clocks (s : State) : (refill s).clocks = s.clocks := by unfold refill; (repeat' split) <;> simp
@[simp] theorem refill_pending (s : State) : (refill s).pending = s.pending := by unfold refill; (repeat' split) <;> simp

@[simp] theorem beginStep_loader (img : Image) (i : Nat) (rest : List Nat) (s : State) : (beginStep img i rest s).loader = s.loader := rfl
@[simp] theorem beginStep_position (img : Image) (i : Nat) (rest : List Nat) (s : State) : (beginStep img i rest s).position = s.position := rfl
@[simp] theorem beginStep_level (img : Image) (i : Nat) (rest : List Nat) (s : State) : (beginStep img i rest s).level = s.level := rfl
@[simp] theorem beginStep_tide (img : Image) (i : Nat) (rest : List Nat) (s : State) : (beginStep img i rest s).tide = s.tide := rfl
@[simp] theorem beginStep_peers (img : Image) (i : Nat) (rest : List Nat) (s : State) : (beginStep img i rest s).peers = s.peers := rfl
@[simp] theorem beginStep_order (img : Image) (i : Nat) (rest : List Nat) (s : State) : (beginStep img i rest s).order = s.order := rfl
@[simp] theorem beginStep_grant (img : Image) (i : Nat) (rest : List Nat) (s : State) : (beginStep img i rest s).grant = s.grant := rfl
@[simp] theorem beginStep_drive (img : Image) (i : Nat) (rest : List Nat) (s : State) : (beginStep img i rest s).drive = s.drive := rfl
@[simp] theorem beginStep_modeCtl (img : Image) (i : Nat) (rest : List Nat) (s : State) : (beginStep img i rest s).modeCtl = s.modeCtl := rfl
@[simp] theorem beginStep_line (img : Image) (i : Nat) (rest : List Nat) (s : State) : (beginStep img i rest s).line = s.line := rfl
@[simp] theorem beginStep_clocks (img : Image) (i : Nat) (rest : List Nat) (s : State) : (beginStep img i rest s).clocks = s.clocks := rfl
@[simp] theorem beginStep_pending (img : Image) (i : Nat) (rest : List Nat) (s : State) : (beginStep img i rest s).pending = s.pending := rfl

@[simp] theorem takeStep_loader (s : State) : (takeStep s).loader = s.loader := by unfold takeStep; (repeat' split) <;> simp
@[simp] theorem takeStep_position (s : State) : (takeStep s).position = s.position := by unfold takeStep; (repeat' split) <;> simp
@[simp] theorem takeStep_level (s : State) : (takeStep s).level = s.level := by unfold takeStep; (repeat' split) <;> simp
@[simp] theorem takeStep_tide (s : State) : (takeStep s).tide = s.tide := by unfold takeStep; (repeat' split) <;> simp
@[simp] theorem takeStep_peers (s : State) : (takeStep s).peers = s.peers := by unfold takeStep; (repeat' split) <;> simp
@[simp] theorem takeStep_order (s : State) : (takeStep s).order = s.order := by unfold takeStep; (repeat' split) <;> simp
@[simp] theorem takeStep_grant (s : State) : (takeStep s).grant = s.grant := by unfold takeStep; (repeat' split) <;> simp
@[simp] theorem takeStep_drive (s : State) : (takeStep s).drive = s.drive := by unfold takeStep; (repeat' split) <;> simp
@[simp] theorem takeStep_line (s : State) : (takeStep s).line = s.line := by unfold takeStep; (repeat' split) <;> simp
@[simp] theorem takeStep_clocks (s : State) : (takeStep s).clocks = s.clocks := by unfold takeStep; (repeat' split) <;> simp
@[simp] theorem takeStep_pending (s : State) : (takeStep s).pending = s.pending := by unfold takeStep; (repeat' split) <;> simp

@[simp] theorem removePlanBad_loader (s : State) : (removePlanBad s).loader = s.loader := rfl
@[simp] theorem removePlanBad_position (s : State) : (removePlanBad s).position = s.position := rfl
@[simp] theorem removePlanBad_level (s : State) : (removePlanBad s).level = s.level := rfl
@[simp] theorem removePlanBad_tide (s : State) : (removePlanBad s).tide = s.tide := rfl
@[simp] theorem removePlanBad_peers (s : State) : (removePlanBad s).peers = s.peers := rfl
@[simp] theorem removePlanBad_order (s : State) : (removePlanBad s).order = s.order := rfl
@[simp] theorem removePlanBad_target (s : State) : (removePlanBad s).target = s.target := rfl
@[simp] theorem removePlanBad_grant (s : State) : (removePlanBad s).grant = s.grant := rfl
@[simp] theorem removePlanBad_drive (s : State) : (removePlanBad s).drive = s.drive := rfl
@[simp] theorem removePlanBad_plan (s : State) : (removePlanBad s).plan = s.plan := rfl
@[simp] theorem removePlanBad_line (s : State) : (removePlanBad s).line = s.line := rfl
@[simp] theorem removePlanBad_clocks (s : State) : (removePlanBad s).clocks = s.clocks := rfl
@[simp] theorem removePlanBad_pending (s : State) : (removePlanBad s).pending = s.pending := rfl

@[simp] theorem startPlan_loader (n : Nat) (s : State) : (startPlan n s).loader = s.loader := by unfold startPlan; (repeat' split) <;> simp
@[simp] theorem startPlan_position (n : Nat) (s : State) : (startPlan n s).position = s.position := by unfold startPlan; (repeat' split) <;> simp
@[simp] theorem startPlan_level (n : Nat) (s : State) : (startPlan n s).level = s.level := by unfold startPlan; (repeat' split) <;> simp
@[simp] theorem startPlan_peers (n : Nat) (s : State) : (startPlan n s).peers = s.peers := by unfold startPlan; (repeat' split) <;> simp
@[simp] theorem startPlan_order (n : Nat) (s : State) : (startPlan n s).order = s.order := by unfold startPlan; (repeat' split) <;> simp
@[simp] theorem startPlan_grant (n : Nat) (s : State) : (startPlan n s).grant = s.grant := by unfold startPlan; (repeat' split) <;> simp
@[simp] theorem startPlan_drive (n : Nat) (s : State) : (startPlan n s).drive = s.drive := by unfold startPlan; (repeat' split) <;> simp
@[simp] theorem startPlan_line (n : Nat) (s : State) : (startPlan n s).line = s.line := by unfold startPlan; (repeat' split) <;> simp
@[simp] theorem startPlan_clocks (n : Nat) (s : State) : (startPlan n s).clocks = s.clocks := by unfold startPlan; (repeat' split) <;> simp
@[simp] theorem startPlan_pending (n : Nat) (s : State) : (startPlan n s).pending = s.pending := by unfold startPlan; (repeat' split) <;> simp

@[simp] theorem holdPlan_loader (s : State) : (holdPlan s).loader = s.loader := by unfold holdPlan; split <;> simp
@[simp] theorem holdPlan_position (s : State) : (holdPlan s).position = s.position := by unfold holdPlan; split <;> simp
@[simp] theorem holdPlan_level (s : State) : (holdPlan s).level = s.level := by unfold holdPlan; split <;> simp
@[simp] theorem holdPlan_tide (s : State) : (holdPlan s).tide = s.tide := by unfold holdPlan; split <;> simp
@[simp] theorem holdPlan_peers (s : State) : (holdPlan s).peers = s.peers := by unfold holdPlan; split <;> simp
@[simp] theorem holdPlan_order (s : State) : (holdPlan s).order = s.order := by unfold holdPlan; split <;> simp
@[simp] theorem holdPlan_target (s : State) : (holdPlan s).target = s.target := by unfold holdPlan; split <;> simp
@[simp] theorem holdPlan_grant (s : State) : (holdPlan s).grant = s.grant := by unfold holdPlan; split <;> simp
@[simp] theorem holdPlan_drive (s : State) : (holdPlan s).drive = s.drive := by unfold holdPlan; split <;> simp
@[simp] theorem holdPlan_modeCtl (s : State) : (holdPlan s).modeCtl = s.modeCtl := by unfold holdPlan; split <;> simp
@[simp] theorem holdPlan_line (s : State) : (holdPlan s).line = s.line := by unfold holdPlan; split <;> simp
@[simp] theorem holdPlan_clocks (s : State) : (holdPlan s).clocks = s.clocks := by unfold holdPlan; split <;> simp
@[simp] theorem holdPlan_pending (s : State) : (holdPlan s).pending = s.pending := by unfold holdPlan; split <;> simp

@[simp] theorem resumePlan_loader (s : State) : (resumePlan s).loader = s.loader := by unfold resumePlan; split <;> simp
@[simp] theorem resumePlan_position (s : State) : (resumePlan s).position = s.position := by unfold resumePlan; split <;> simp
@[simp] theorem resumePlan_level (s : State) : (resumePlan s).level = s.level := by unfold resumePlan; split <;> simp
@[simp] theorem resumePlan_tide (s : State) : (resumePlan s).tide = s.tide := by unfold resumePlan; split <;> simp
@[simp] theorem resumePlan_peers (s : State) : (resumePlan s).peers = s.peers := by unfold resumePlan; split <;> simp
@[simp] theorem resumePlan_order (s : State) : (resumePlan s).order = s.order := by unfold resumePlan; split <;> simp
@[simp] theorem resumePlan_grant (s : State) : (resumePlan s).grant = s.grant := by unfold resumePlan; split <;> simp
@[simp] theorem resumePlan_drive (s : State) : (resumePlan s).drive = s.drive := by unfold resumePlan; split <;> simp
@[simp] theorem resumePlan_line (s : State) : (resumePlan s).line = s.line := by unfold resumePlan; split <;> simp
@[simp] theorem resumePlan_clocks (s : State) : (resumePlan s).clocks = s.clocks := by unfold resumePlan; split <;> simp
@[simp] theorem resumePlan_pending (s : State) : (resumePlan s).pending = s.pending := by unfold resumePlan; split <;> simp

@[simp] theorem adjustRestored_loader (m : Mode) (s : State) : (adjustRestored m s).loader = s.loader := by unfold adjustRestored; (repeat' split) <;> simp
@[simp] theorem adjustRestored_position (m : Mode) (s : State) : (adjustRestored m s).position = s.position := by unfold adjustRestored; (repeat' split) <;> simp
@[simp] theorem adjustRestored_level (m : Mode) (s : State) : (adjustRestored m s).level = s.level := by unfold adjustRestored; (repeat' split) <;> simp
@[simp] theorem adjustRestored_tide (m : Mode) (s : State) : (adjustRestored m s).tide = s.tide := by unfold adjustRestored; (repeat' split) <;> simp
@[simp] theorem adjustRestored_peers (m : Mode) (s : State) : (adjustRestored m s).peers = s.peers := by unfold adjustRestored; (repeat' split) <;> simp
@[simp] theorem adjustRestored_order (m : Mode) (s : State) : (adjustRestored m s).order = s.order := by unfold adjustRestored; (repeat' split) <;> simp
@[simp] theorem adjustRestored_grant (m : Mode) (s : State) : (adjustRestored m s).grant = s.grant := by unfold adjustRestored; (repeat' split) <;> simp
@[simp] theorem adjustRestored_drive (m : Mode) (s : State) : (adjustRestored m s).drive = s.drive := by unfold adjustRestored; (repeat' split) <;> simp
@[simp] theorem adjustRestored_line (m : Mode) (s : State) : (adjustRestored m s).line = s.line := by unfold adjustRestored; (repeat' split) <;> simp
@[simp] theorem adjustRestored_clocks (m : Mode) (s : State) : (adjustRestored m s).clocks = s.clocks := by unfold adjustRestored; (repeat' split) <;> simp
@[simp] theorem adjustRestored_pending (m : Mode) (s : State) : (adjustRestored m s).pending = s.pending := by unfold adjustRestored; (repeat' split) <;> simp

@[simp] theorem restoreSave_loader (m : Mode) (s : State) : (restoreSave m s).loader = s.loader := by unfold restoreSave; split <;> simp
@[simp] theorem restoreSave_position (m : Mode) (s : State) : (restoreSave m s).position = s.position := by unfold restoreSave; split <;> simp
@[simp] theorem restoreSave_level (m : Mode) (s : State) : (restoreSave m s).level = s.level := by unfold restoreSave; split <;> simp
@[simp] theorem restoreSave_peers (m : Mode) (s : State) : (restoreSave m s).peers = s.peers := by unfold restoreSave; split <;> simp
@[simp] theorem restoreSave_order (m : Mode) (s : State) : (restoreSave m s).order = s.order := by unfold restoreSave; split <;> simp
@[simp] theorem restoreSave_grant (m : Mode) (s : State) : (restoreSave m s).grant = s.grant := by unfold restoreSave; split <;> simp
@[simp] theorem restoreSave_drive (m : Mode) (s : State) : (restoreSave m s).drive = s.drive := by unfold restoreSave; split <;> simp
@[simp] theorem restoreSave_line (m : Mode) (s : State) : (restoreSave m s).line = s.line := by unfold restoreSave; split <;> simp
@[simp] theorem restoreSave_clocks (m : Mode) (s : State) : (restoreSave m s).clocks = s.clocks := by unfold restoreSave; split <;> simp
@[simp] theorem restoreSave_pending (m : Mode) (s : State) : (restoreSave m s).pending = s.pending := by unfold restoreSave; split <;> simp

@[simp] theorem takePlanAction_loader (s : State) : (takePlanAction s).loader = s.loader := by unfold takePlanAction; split <;> simp
@[simp] theorem takePlanAction_position (s : State) : (takePlanAction s).position = s.position := by unfold takePlanAction; split <;> simp
@[simp] theorem takePlanAction_level (s : State) : (takePlanAction s).level = s.level := by unfold takePlanAction; split <;> simp
@[simp] theorem takePlanAction_peers (s : State) : (takePlanAction s).peers = s.peers := by unfold takePlanAction; split <;> simp
@[simp] theorem takePlanAction_order (s : State) : (takePlanAction s).order = s.order := by unfold takePlanAction; split <;> simp
@[simp] theorem takePlanAction_grant (s : State) : (takePlanAction s).grant = s.grant := by unfold takePlanAction; split <;> simp
@[simp] theorem takePlanAction_drive (s : State) : (takePlanAction s).drive = s.drive := by unfold takePlanAction; split <;> simp
@[simp] theorem takePlanAction_line (s : State) : (takePlanAction s).line = s.line := by unfold takePlanAction; split <;> simp
@[simp] theorem takePlanAction_clocks (s : State) : (takePlanAction s).clocks = s.clocks := by unfold takePlanAction; split <;> simp
@[simp] theorem takePlanAction_pending (s : State) : (takePlanAction s).pending = s.pending := by unfold takePlanAction; split <;> simp

@[simp] theorem stepDone_loader (img : Image) (s : State) : (stepDone img s).loader = s.loader := by unfold stepDone; (repeat' split) <;> simp
@[simp] theorem stepDone_position (img : Image) (s : State) : (stepDone img s).position = s.position := by unfold stepDone; (repeat' split) <;> simp
@[simp] theorem stepDone_level (img : Image) (s : State) : (stepDone img s).level = s.level := by unfold stepDone; (repeat' split) <;> simp
@[simp] theorem stepDone_tide (img : Image) (s : State) : (stepDone img s).tide = s.tide := by unfold stepDone; (repeat' split) <;> simp
@[simp] theorem stepDone_peers (img : Image) (s : State) : (stepDone img s).peers = s.peers := by unfold stepDone; (repeat' split) <;> simp
@[simp] theorem stepDone_order (img : Image) (s : State) : (stepDone img s).order = s.order := by unfold stepDone; (repeat' split) <;> simp
@[simp] theorem stepDone_grant (img : Image) (s : State) : (stepDone img s).grant = s.grant := by unfold stepDone; (repeat' split) <;> simp
@[simp] theorem stepDone_drive (img : Image) (s : State) : (stepDone img s).drive = s.drive := by unfold stepDone; (repeat' split) <;> simp
theorem stepDone_marks (img : Image) (s : State) : MarkOnly s.line (stepDone img s).line := by
  unfold stepDone; (repeat' split) <;> first | (apply Or.inl; simp; done) | (apply Or.inr; simp)
@[simp] theorem stepDone_clocks (img : Image) (s : State) : (stepDone img s).clocks = s.clocks := by unfold stepDone; (repeat' split) <;> simp
@[simp] theorem stepDone_pending (img : Image) (s : State) : (stepDone img s).pending = s.pending := by unfold stepDone; (repeat' split) <;> simp

@[simp] theorem tidePhase_loader (img : Image) (s : State) : (tidePhase img s).loader = s.loader := by unfold tidePhase; (repeat' split) <;> simp
@[simp] theorem tidePhase_position (img : Image) (s : State) : (tidePhase img s).position = s.position := by unfold tidePhase; (repeat' split) <;> simp
@[simp] theorem tidePhase_level (img : Image) (s : State) : (tidePhase img s).level = s.level := by unfold tidePhase; (repeat' split) <;> simp
@[simp] theorem tidePhase_peers (img : Image) (s : State) : (tidePhase img s).peers = s.peers := by unfold tidePhase; (repeat' split) <;> simp
@[simp] theorem tidePhase_order (img : Image) (s : State) : (tidePhase img s).order = s.order := by unfold tidePhase; (repeat' split) <;> simp
@[simp] theorem tidePhase_grant (img : Image) (s : State) : (tidePhase img s).grant = s.grant := by unfold tidePhase; (repeat' split) <;> simp
@[simp] theorem tidePhase_drive (img : Image) (s : State) : (tidePhase img s).drive = s.drive := by unfold tidePhase; (repeat' split) <;> simp
theorem tidePhase_marks (img : Image) (s : State) : MarkOnly s.line (tidePhase img s).line := by
  unfold tidePhase; (repeat' split) <;> first | exact stepDone_marks _ _ | exact .inl rfl
@[simp] theorem tidePhase_clocks (img : Image) (s : State) : (tidePhase img s).clocks = s.clocks := by unfold tidePhase; (repeat' split) <;> simp
@[simp] theorem tidePhase_pending (img : Image) (s : State) : (tidePhase img s).pending = s.pending := by unfold tidePhase; (repeat' split) <;> simp

@[simp] theorem enterTide_loader (img : Image) (s : State) : (enterTide img s).loader = s.loader := by simp [enterTide]
@[simp] theorem enterTide_position (img : Image) (s : State) : (enterTide img s).position = s.position := by simp [enterTide]
@[simp] theorem enterTide_level (img : Image) (s : State) : (enterTide img s).level = s.level := by simp [enterTide]
@[simp] theorem enterTide_peers (img : Image) (s : State) : (enterTide img s).peers = s.peers := by simp [enterTide]
@[simp] theorem enterTide_order (img : Image) (s : State) : (enterTide img s).order = s.order := by simp [enterTide]
@[simp] theorem enterTide_grant (img : Image) (s : State) : (enterTide img s).grant = s.grant := by simp [enterTide]
@[simp] theorem enterTide_drive (img : Image) (s : State) : (enterTide img s).drive = s.drive := by simp [enterTide]
theorem enterTide_marks (img : Image) (s : State) : MarkOnly s.line (enterTide img s).line := tidePhase_marks _ _
@[simp] theorem enterTide_clocks (img : Image) (s : State) : (enterTide img s).clocks = s.clocks := by simp [enterTide]
@[simp] theorem enterTide_pending (img : Image) (s : State) : (enterTide img s).pending = s.pending := by simp [enterTide]

@[simp] theorem enterDwell_loader (img : Image) (s : State) : (enterDwell img s).loader = s.loader := by unfold enterDwell; split <;> simp
@[simp] theorem enterDwell_position (img : Image) (s : State) : (enterDwell img s).position = s.position := by unfold enterDwell; split <;> simp
@[simp] theorem enterDwell_level (img : Image) (s : State) : (enterDwell img s).level = s.level := by unfold enterDwell; split <;> simp
@[simp] theorem enterDwell_peers (img : Image) (s : State) : (enterDwell img s).peers = s.peers := by unfold enterDwell; split <;> simp
@[simp] theorem enterDwell_order (img : Image) (s : State) : (enterDwell img s).order = s.order := by unfold enterDwell; split <;> simp
@[simp] theorem enterDwell_grant (img : Image) (s : State) : (enterDwell img s).grant = s.grant := by unfold enterDwell; split <;> simp
@[simp] theorem enterDwell_drive (img : Image) (s : State) : (enterDwell img s).drive = s.drive := by unfold enterDwell; split <;> simp
theorem enterDwell_marks (img : Image) (s : State) : MarkOnly s.line (enterDwell img s).line := by
  unfold enterDwell; split
  · exact enterTide_marks _ _
  · exact .inl rfl
@[simp] theorem enterDwell_clocks (img : Image) (s : State) : (enterDwell img s).clocks = s.clocks := by unfold enterDwell; split <;> simp
@[simp] theorem enterDwell_pending (img : Image) (s : State) : (enterDwell img s).pending = s.pending := by unfold enterDwell; split <;> simp

@[simp] theorem evalPlan_loader (img : Image) (s : State) : (evalPlan img s).loader = s.loader := by
  unfold evalPlan; dsimp only; (repeat' split) <;> simp
@[simp] theorem evalPlan_position (img : Image) (s : State) : (evalPlan img s).position = s.position := by
  unfold evalPlan; dsimp only; (repeat' split) <;> simp
@[simp] theorem evalPlan_level (img : Image) (s : State) : (evalPlan img s).level = s.level := by
  unfold evalPlan; dsimp only; (repeat' split) <;> simp
@[simp] theorem evalPlan_peers (img : Image) (s : State) : (evalPlan img s).peers = s.peers := by
  unfold evalPlan; dsimp only; (repeat' split) <;> simp
@[simp] theorem evalPlan_order (img : Image) (s : State) : (evalPlan img s).order = s.order := by
  unfold evalPlan; dsimp only; (repeat' split) <;> simp
@[simp] theorem evalPlan_grant (img : Image) (s : State) : (evalPlan img s).grant = s.grant := by
  unfold evalPlan; dsimp only; (repeat' split) <;> simp
@[simp] theorem evalPlan_drive (img : Image) (s : State) : (evalPlan img s).drive = s.drive := by
  unfold evalPlan; dsimp only; (repeat' split) <;> simp
/-- The Sequencer's evaluation does nothing to the line but set the mark (R43, R137). -/
theorem evalPlan_marks (img : Image) (s : State) : MarkOnly s.line (evalPlan img s).line := by
  unfold evalPlan; dsimp only
  (repeat' split) <;> first | exact .inl rfl | exact enterDwell_marks _ _ | exact enterTide_marks _ _ | exact tidePhase_marks _ _
@[simp] theorem evalPlan_clocks (img : Image) (s : State) : (evalPlan img s).clocks = s.clocks := by
  unfold evalPlan; dsimp only; (repeat' split) <;> simp
@[simp] theorem evalPlan_pending (img : Image) (s : State) : (evalPlan img s).pending = s.pending := by
  unfold evalPlan; dsimp only; (repeat' split) <;> simp

@[simp] theorem takeStormSave_loader (new : Mode) (s : State) : (takeStormSave new s).loader = s.loader := by unfold takeStormSave; split <;> simp
@[simp] theorem takeStormSave_position (new : Mode) (s : State) : (takeStormSave new s).position = s.position := by unfold takeStormSave; split <;> simp
@[simp] theorem takeStormSave_level (new : Mode) (s : State) : (takeStormSave new s).level = s.level := by unfold takeStormSave; split <;> simp
@[simp] theorem takeStormSave_tide (new : Mode) (s : State) : (takeStormSave new s).tide = s.tide := by unfold takeStormSave; split <;> simp
@[simp] theorem takeStormSave_peers (new : Mode) (s : State) : (takeStormSave new s).peers = s.peers := by unfold takeStormSave; split <;> simp
@[simp] theorem takeStormSave_order (new : Mode) (s : State) : (takeStormSave new s).order = s.order := by unfold takeStormSave; split <;> simp
@[simp] theorem takeStormSave_target (new : Mode) (s : State) : (takeStormSave new s).target = s.target := by unfold takeStormSave; split <;> simp
@[simp] theorem takeStormSave_grant (new : Mode) (s : State) : (takeStormSave new s).grant = s.grant := by unfold takeStormSave; split <;> simp
@[simp] theorem takeStormSave_drive (new : Mode) (s : State) : (takeStormSave new s).drive = s.drive := by unfold takeStormSave; split <;> simp
@[simp] theorem takeStormSave_plan (new : Mode) (s : State) : (takeStormSave new s).plan = s.plan := by unfold takeStormSave; split <;> simp
@[simp] theorem takeStormSave_line (new : Mode) (s : State) : (takeStormSave new s).line = s.line := by unfold takeStormSave; split <;> simp
@[simp] theorem takeStormSave_clocks (new : Mode) (s : State) : (takeStormSave new s).clocks = s.clocks := by unfold takeStormSave; split <;> simp
@[simp] theorem takeStormSave_pending (new : Mode) (s : State) : (takeStormSave new s).pending = s.pending := by unfold takeStormSave; split <;> simp

@[simp] theorem setMode_loader (new : Mode) (s : State) : (setMode new s).loader = s.loader := rfl
@[simp] theorem setMode_position (new : Mode) (s : State) : (setMode new s).position = s.position := rfl
@[simp] theorem setMode_level (new : Mode) (s : State) : (setMode new s).level = s.level := rfl
@[simp] theorem setMode_tide (new : Mode) (s : State) : (setMode new s).tide = s.tide := rfl
@[simp] theorem setMode_peers (new : Mode) (s : State) : (setMode new s).peers = s.peers := rfl
@[simp] theorem setMode_order (new : Mode) (s : State) : (setMode new s).order = s.order := rfl
@[simp] theorem setMode_target (new : Mode) (s : State) : (setMode new s).target = s.target := rfl
@[simp] theorem setMode_grant (new : Mode) (s : State) : (setMode new s).grant = s.grant := rfl
@[simp] theorem setMode_drive (new : Mode) (s : State) : (setMode new s).drive = s.drive := rfl
@[simp] theorem setMode_plan (new : Mode) (s : State) : (setMode new s).plan = s.plan := rfl
@[simp] theorem setMode_line (new : Mode) (s : State) : (setMode new s).line = s.line := rfl
@[simp] theorem setMode_clocks (new : Mode) (s : State) : (setMode new s).clocks = s.clocks := rfl
@[simp] theorem setMode_pending (new : Mode) (s : State) : (setMode new s).pending = s.pending := rfl

@[simp] theorem enterAuto_loader (s : State) : (enterAuto s).loader = s.loader := by
  unfold enterAuto; dsimp only; (repeat' split) <;> simp
@[simp] theorem enterAuto_position (s : State) : (enterAuto s).position = s.position := by
  unfold enterAuto; dsimp only; (repeat' split) <;> simp
@[simp] theorem enterAuto_level (s : State) : (enterAuto s).level = s.level := by
  unfold enterAuto; dsimp only; (repeat' split) <;> simp
@[simp] theorem enterAuto_peers (s : State) : (enterAuto s).peers = s.peers := by
  unfold enterAuto; dsimp only; (repeat' split) <;> simp
@[simp] theorem enterAuto_line (s : State) : (enterAuto s).line = s.line := by
  unfold enterAuto; dsimp only; (repeat' split) <;> simp
@[simp] theorem enterAuto_clocks (s : State) : (enterAuto s).clocks = s.clocks := by
  unfold enterAuto; dsimp only; (repeat' split) <;> simp
@[simp] theorem enterAuto_pending (s : State) : (enterAuto s).pending = s.pending := by
  unfold enterAuto; dsimp only; (repeat' split) <;> simp

@[simp] theorem restoreInto_loader (new : Mode) (s : State) : (restoreInto new s).loader = s.loader := by unfold restoreInto; split <;> simp
@[simp] theorem restoreInto_position (new : Mode) (s : State) : (restoreInto new s).position = s.position := by unfold restoreInto; split <;> simp
@[simp] theorem restoreInto_level (new : Mode) (s : State) : (restoreInto new s).level = s.level := by unfold restoreInto; split <;> simp
@[simp] theorem restoreInto_peers (new : Mode) (s : State) : (restoreInto new s).peers = s.peers := by unfold restoreInto; split <;> simp
@[simp] theorem restoreInto_order (new : Mode) (s : State) : (restoreInto new s).order = s.order := by unfold restoreInto; split <;> simp
@[simp] theorem restoreInto_grant (new : Mode) (s : State) : (restoreInto new s).grant = s.grant := by unfold restoreInto; split <;> simp
@[simp] theorem restoreInto_drive (new : Mode) (s : State) : (restoreInto new s).drive = s.drive := by unfold restoreInto; split <;> simp
@[simp] theorem restoreInto_line (new : Mode) (s : State) : (restoreInto new s).line = s.line := by unfold restoreInto; split <;> simp
@[simp] theorem restoreInto_clocks (new : Mode) (s : State) : (restoreInto new s).clocks = s.clocks := by unfold restoreInto; split <;> simp
@[simp] theorem restoreInto_pending (new : Mode) (s : State) : (restoreInto new s).pending = s.pending := by unfold restoreInto; split <;> simp

@[simp] theorem enterMode_loader (new : Mode) (s : State) : (enterMode new s).loader = s.loader := by unfold enterMode; (repeat' split) <;> simp
@[simp] theorem enterMode_position (new : Mode) (s : State) : (enterMode new s).position = s.position := by unfold enterMode; (repeat' split) <;> simp
@[simp] theorem enterMode_level (new : Mode) (s : State) : (enterMode new s).level = s.level := by unfold enterMode; (repeat' split) <;> simp
@[simp] theorem enterMode_peers (new : Mode) (s : State) : (enterMode new s).peers = s.peers := by unfold enterMode; (repeat' split) <;> simp
@[simp] theorem enterMode_line (new : Mode) (s : State) : (enterMode new s).line = s.line := by unfold enterMode; (repeat' split) <;> simp
@[simp] theorem enterMode_clocks (new : Mode) (s : State) : (enterMode new s).clocks = s.clocks := by unfold enterMode; (repeat' split) <;> simp
@[simp] theorem enterMode_pending (new : Mode) (s : State) : (enterMode new s).pending = s.pending := by unfold enterMode; (repeat' split) <;> simp

@[simp] theorem raise_loader (ks : List FaultKind) (s : State) : (raise ks s).loader = s.loader := by unfold raise; split <;> simp
@[simp] theorem raise_position (ks : List FaultKind) (s : State) : (raise ks s).position = s.position := by unfold raise; split <;> simp
@[simp] theorem raise_level (ks : List FaultKind) (s : State) : (raise ks s).level = s.level := by unfold raise; split <;> simp
@[simp] theorem raise_peers (ks : List FaultKind) (s : State) : (raise ks s).peers = s.peers := by unfold raise; split <;> simp
@[simp] theorem raise_line (ks : List FaultKind) (s : State) : (raise ks s).line = s.line := by unfold raise; split <;> simp
@[simp] theorem raise_clocks (ks : List FaultKind) (s : State) : (raise ks s).clocks = s.clocks := by unfold raise; split <;> simp
@[simp] theorem raise_pending (ks : List FaultKind) (s : State) : (raise ks s).pending = s.pending := by unfold raise; split <;> simp

@[simp] theorem stormTimerAfter_loader (before : State) (s : State) : (stormTimerAfter before s).loader = s.loader := rfl
@[simp] theorem stormTimerAfter_position (before : State) (s : State) : (stormTimerAfter before s).position = s.position := rfl
@[simp] theorem stormTimerAfter_level (before : State) (s : State) : (stormTimerAfter before s).level = s.level := rfl
@[simp] theorem stormTimerAfter_tide (before : State) (s : State) : (stormTimerAfter before s).tide = s.tide := rfl
@[simp] theorem stormTimerAfter_peers (before : State) (s : State) : (stormTimerAfter before s).peers = s.peers := rfl
@[simp] theorem stormTimerAfter_order (before : State) (s : State) : (stormTimerAfter before s).order = s.order := rfl
@[simp] theorem stormTimerAfter_target (before : State) (s : State) : (stormTimerAfter before s).target = s.target := rfl
@[simp] theorem stormTimerAfter_grant (before : State) (s : State) : (stormTimerAfter before s).grant = s.grant := rfl
@[simp] theorem stormTimerAfter_drive (before : State) (s : State) : (stormTimerAfter before s).drive = s.drive := rfl
@[simp] theorem stormTimerAfter_plan (before : State) (s : State) : (stormTimerAfter before s).plan = s.plan := rfl
@[simp] theorem stormTimerAfter_line (before : State) (s : State) : (stormTimerAfter before s).line = s.line := rfl
@[simp] theorem stormTimerAfter_clocks (before : State) (s : State) : (stormTimerAfter before s).clocks = s.clocks := rfl
@[simp] theorem stormTimerAfter_pending (before : State) (s : State) : (stormTimerAfter before s).pending = s.pending := rfl

@[simp] theorem serveStorm_loader (s : State) : (serveStorm s).loader = s.loader := by unfold serveStorm; split <;> simp
@[simp] theorem serveStorm_position (s : State) : (serveStorm s).position = s.position := by unfold serveStorm; split <;> simp
@[simp] theorem serveStorm_level (s : State) : (serveStorm s).level = s.level := by unfold serveStorm; split <;> simp
@[simp] theorem serveStorm_peers (s : State) : (serveStorm s).peers = s.peers := by unfold serveStorm; split <;> simp
@[simp] theorem serveStorm_line (s : State) : (serveStorm s).line = s.line := by unfold serveStorm; split <;> simp
@[simp] theorem serveStorm_clocks (s : State) : (serveStorm s).clocks = s.clocks := by unfold serveStorm; split <;> simp
@[simp] theorem serveStorm_pending (s : State) : (serveStorm s).pending = s.pending := by unfold serveStorm; split <;> simp

@[simp] theorem setConditions_loader (order input level : Bool) (s : State) : (setConditions order input level s).loader = s.loader := by simp [setConditions]
@[simp] theorem setConditions_position (order input level : Bool) (s : State) : (setConditions order input level s).position = s.position := by simp [setConditions]
@[simp] theorem setConditions_level (order input level : Bool) (s : State) : (setConditions order input level s).level = s.level := by simp [setConditions]
@[simp] theorem setConditions_peers (order input level : Bool) (s : State) : (setConditions order input level s).peers = s.peers := by simp [setConditions]
@[simp] theorem setConditions_line (order input level : Bool) (s : State) : (setConditions order input level s).line = s.line := by simp [setConditions]
@[simp] theorem setConditions_clocks (order input level : Bool) (s : State) : (setConditions order input level s).clocks = s.clocks := by simp [setConditions]
@[simp] theorem setConditions_pending (order input level : Bool) (s : State) : (setConditions order input level s).pending = s.pending := by simp [setConditions]

@[simp] theorem sampleKeys_loader (maintKey localKey stormInput : Bool) (s : State) : (sampleKeys maintKey localKey stormInput s).loader = s.loader := by
  unfold sampleKeys; dsimp only; (repeat' split) <;> simp
@[simp] theorem sampleKeys_position (maintKey localKey stormInput : Bool) (s : State) : (sampleKeys maintKey localKey stormInput s).position = s.position := by
  unfold sampleKeys; dsimp only; (repeat' split) <;> simp
@[simp] theorem sampleKeys_level (maintKey localKey stormInput : Bool) (s : State) : (sampleKeys maintKey localKey stormInput s).level = s.level := by
  unfold sampleKeys; dsimp only; (repeat' split) <;> simp
@[simp] theorem sampleKeys_peers (maintKey localKey stormInput : Bool) (s : State) : (sampleKeys maintKey localKey stormInput s).peers = s.peers := by
  unfold sampleKeys; dsimp only; (repeat' split) <;> simp
@[simp] theorem sampleKeys_line (maintKey localKey stormInput : Bool) (s : State) : (sampleKeys maintKey localKey stormInput s).line = s.line := by
  unfold sampleKeys; dsimp only; (repeat' split) <;> simp
@[simp] theorem sampleKeys_clocks (maintKey localKey stormInput : Bool) (s : State) : (sampleKeys maintKey localKey stormInput s).clocks = s.clocks := by
  unfold sampleKeys; dsimp only; (repeat' split) <;> simp
@[simp] theorem sampleKeys_pending (maintKey localKey stormInput : Bool) (s : State) : (sampleKeys maintKey localKey stormInput s).pending = s.pending := by
  unfold sampleKeys; dsimp only; (repeat' split) <;> simp

@[simp] theorem planActionAtAdoption_loader (s : State) : (planActionAtAdoption s).loader = s.loader := by unfold planActionAtAdoption; split <;> simp
@[simp] theorem planActionAtAdoption_position (s : State) : (planActionAtAdoption s).position = s.position := by unfold planActionAtAdoption; split <;> simp
@[simp] theorem planActionAtAdoption_level (s : State) : (planActionAtAdoption s).level = s.level := by unfold planActionAtAdoption; split <;> simp
@[simp] theorem planActionAtAdoption_peers (s : State) : (planActionAtAdoption s).peers = s.peers := by unfold planActionAtAdoption; split <;> simp
@[simp] theorem planActionAtAdoption_grant (s : State) : (planActionAtAdoption s).grant = s.grant := by unfold planActionAtAdoption; split <;> simp
@[simp] theorem planActionAtAdoption_drive (s : State) : (planActionAtAdoption s).drive = s.drive := by unfold planActionAtAdoption; split <;> simp
@[simp] theorem planActionAtAdoption_line (s : State) : (planActionAtAdoption s).line = s.line := by unfold planActionAtAdoption; split <;> simp
@[simp] theorem planActionAtAdoption_clocks (s : State) : (planActionAtAdoption s).clocks = s.clocks := by unfold planActionAtAdoption; split <;> simp
@[simp] theorem planActionAtAdoption_pending (s : State) : (planActionAtAdoption s).pending = s.pending := by unfold planActionAtAdoption; split <;> simp

@[simp] theorem haltAtAdoption_loader (s : State) : (haltAtAdoption s).loader = s.loader := by unfold haltAtAdoption; (repeat' split) <;> simp
@[simp] theorem haltAtAdoption_position (s : State) : (haltAtAdoption s).position = s.position := by unfold haltAtAdoption; (repeat' split) <;> simp
@[simp] theorem haltAtAdoption_level (s : State) : (haltAtAdoption s).level = s.level := by unfold haltAtAdoption; (repeat' split) <;> simp
@[simp] theorem haltAtAdoption_tide (s : State) : (haltAtAdoption s).tide = s.tide := by unfold haltAtAdoption; (repeat' split) <;> simp
@[simp] theorem haltAtAdoption_peers (s : State) : (haltAtAdoption s).peers = s.peers := by unfold haltAtAdoption; (repeat' split) <;> simp
@[simp] theorem haltAtAdoption_order (s : State) : (haltAtAdoption s).order = s.order := by unfold haltAtAdoption; (repeat' split) <;> simp
@[simp] theorem haltAtAdoption_line (s : State) : (haltAtAdoption s).line = s.line := by unfold haltAtAdoption; (repeat' split) <;> simp
@[simp] theorem haltAtAdoption_clocks (s : State) : (haltAtAdoption s).clocks = s.clocks := by unfold haltAtAdoption; (repeat' split) <;> simp
@[simp] theorem haltAtAdoption_pending (s : State) : (haltAtAdoption s).pending = s.pending := by unfold haltAtAdoption; (repeat' split) <;> simp

@[simp] theorem adopt_loader (o : Order) (s : State) : (adopt o s).loader = s.loader := by simp [adopt]
@[simp] theorem adopt_position (o : Order) (s : State) : (adopt o s).position = s.position := by simp [adopt]
@[simp] theorem adopt_level (o : Order) (s : State) : (adopt o s).level = s.level := by simp [adopt]
@[simp] theorem adopt_peers (o : Order) (s : State) : (adopt o s).peers = s.peers := by simp [adopt]
@[simp] theorem adopt_clocks (o : Order) (s : State) : (adopt o s).clocks = s.clocks := by simp [adopt]
@[simp] theorem adopt_pending (o : Order) (s : State) : (adopt o s).pending = s.pending := by simp [adopt]

@[simp] theorem setClock_loader (t : Nat × Nat) (s : State) : (setClock t s).loader = s.loader := by unfold setClock; split <;> simp
@[simp] theorem setClock_position (t : Nat × Nat) (s : State) : (setClock t s).position = s.position := by unfold setClock; split <;> simp
@[simp] theorem setClock_level (t : Nat × Nat) (s : State) : (setClock t s).level = s.level := by unfold setClock; split <;> simp
@[simp] theorem setClock_tide (t : Nat × Nat) (s : State) : (setClock t s).tide = s.tide := by unfold setClock; split <;> simp
@[simp] theorem setClock_peers (t : Nat × Nat) (s : State) : (setClock t s).peers = s.peers := by unfold setClock; split <;> simp
@[simp] theorem setClock_target (t : Nat × Nat) (s : State) : (setClock t s).target = s.target := by unfold setClock; split <;> simp
@[simp] theorem setClock_grant (t : Nat × Nat) (s : State) : (setClock t s).grant = s.grant := by unfold setClock; split <;> simp
@[simp] theorem setClock_drive (t : Nat × Nat) (s : State) : (setClock t s).drive = s.drive := by unfold setClock; split <;> simp
@[simp] theorem setClock_plan (t : Nat × Nat) (s : State) : (setClock t s).plan = s.plan := by unfold setClock; split <;> simp
@[simp] theorem setClock_modeCtl (t : Nat × Nat) (s : State) : (setClock t s).modeCtl = s.modeCtl := by unfold setClock; split <;> simp
@[simp] theorem setClock_line (t : Nat × Nat) (s : State) : (setClock t s).line = s.line := by unfold setClock; split <;> simp
@[simp] theorem setClock_clocks (t : Nat × Nat) (s : State) : (setClock t s).clocks = s.clocks := by unfold setClock; split <;> simp
@[simp] theorem setClock_pending (t : Nat × Nat) (s : State) : (setClock t s).pending = s.pending := by unfold setClock; split <;> simp

@[simp] theorem countError_loader (s : State) : (countError s).loader = s.loader := rfl
@[simp] theorem countError_position (s : State) : (countError s).position = s.position := rfl
@[simp] theorem countError_level (s : State) : (countError s).level = s.level := rfl
@[simp] theorem countError_tide (s : State) : (countError s).tide = s.tide := rfl
@[simp] theorem countError_peers (s : State) : (countError s).peers = s.peers := rfl
@[simp] theorem countError_order (s : State) : (countError s).order = s.order := rfl
@[simp] theorem countError_target (s : State) : (countError s).target = s.target := rfl
@[simp] theorem countError_grant (s : State) : (countError s).grant = s.grant := rfl
@[simp] theorem countError_drive (s : State) : (countError s).drive = s.drive := rfl
@[simp] theorem countError_plan (s : State) : (countError s).plan = s.plan := rfl
@[simp] theorem countError_modeCtl (s : State) : (countError s).modeCtl = s.modeCtl := rfl
@[simp] theorem countError_clocks (s : State) : (countError s).clocks = s.clocks := rfl
@[simp] theorem countError_pending (s : State) : (countError s).pending = s.pending := rfl

@[simp] theorem setWindow_loader (w : Window) (s : State) : (setWindow w s).loader = s.loader := rfl
@[simp] theorem setWindow_position (w : Window) (s : State) : (setWindow w s).position = s.position := rfl
@[simp] theorem setWindow_level (w : Window) (s : State) : (setWindow w s).level = s.level := rfl
@[simp] theorem setWindow_peers (w : Window) (s : State) : (setWindow w s).peers = s.peers := rfl
@[simp] theorem setWindow_order (w : Window) (s : State) : (setWindow w s).order = s.order := rfl
@[simp] theorem setWindow_target (w : Window) (s : State) : (setWindow w s).target = s.target := rfl
@[simp] theorem setWindow_grant (w : Window) (s : State) : (setWindow w s).grant = s.grant := rfl
@[simp] theorem setWindow_drive (w : Window) (s : State) : (setWindow w s).drive = s.drive := rfl
@[simp] theorem setWindow_plan (w : Window) (s : State) : (setWindow w s).plan = s.plan := rfl
@[simp] theorem setWindow_modeCtl (w : Window) (s : State) : (setWindow w s).modeCtl = s.modeCtl := rfl
@[simp] theorem setWindow_line (w : Window) (s : State) : (setWindow w s).line = s.line := rfl
@[simp] theorem setWindow_clocks (w : Window) (s : State) : (setWindow w s).clocks = s.clocks := rfl
@[simp] theorem setWindow_pending (w : Window) (s : State) : (setWindow w s).pending = s.pending := rfl

@[simp] theorem makeTideEvent_loader (k : TideKind) (origin : TideOrigin) (head : Option Int) (s : State) : (makeTideEvent k origin head s).loader = s.loader := rfl
@[simp] theorem makeTideEvent_position (k : TideKind) (origin : TideOrigin) (head : Option Int) (s : State) : (makeTideEvent k origin head s).position = s.position := rfl
@[simp] theorem makeTideEvent_level (k : TideKind) (origin : TideOrigin) (head : Option Int) (s : State) : (makeTideEvent k origin head s).level = s.level := rfl
@[simp] theorem makeTideEvent_peers (k : TideKind) (origin : TideOrigin) (head : Option Int) (s : State) : (makeTideEvent k origin head s).peers = s.peers := rfl
@[simp] theorem makeTideEvent_order (k : TideKind) (origin : TideOrigin) (head : Option Int) (s : State) : (makeTideEvent k origin head s).order = s.order := rfl
@[simp] theorem makeTideEvent_target (k : TideKind) (origin : TideOrigin) (head : Option Int) (s : State) : (makeTideEvent k origin head s).target = s.target := rfl
@[simp] theorem makeTideEvent_grant (k : TideKind) (origin : TideOrigin) (head : Option Int) (s : State) : (makeTideEvent k origin head s).grant = s.grant := rfl
@[simp] theorem makeTideEvent_drive (k : TideKind) (origin : TideOrigin) (head : Option Int) (s : State) : (makeTideEvent k origin head s).drive = s.drive := rfl
@[simp] theorem makeTideEvent_plan (k : TideKind) (origin : TideOrigin) (head : Option Int) (s : State) : (makeTideEvent k origin head s).plan = s.plan := rfl
@[simp] theorem makeTideEvent_modeCtl (k : TideKind) (origin : TideOrigin) (head : Option Int) (s : State) : (makeTideEvent k origin head s).modeCtl = s.modeCtl := rfl
@[simp] theorem makeTideEvent_clocks (k : TideKind) (origin : TideOrigin) (head : Option Int) (s : State) : (makeTideEvent k origin head s).clocks = s.clocks := rfl
@[simp] theorem makeTideEvent_pending (k : TideKind) (origin : TideOrigin) (head : Option Int) (s : State) : (makeTideEvent k origin head s).pending = s.pending := rfl

@[simp] theorem placeState_loader (s : State) : (placeState s).loader = s.loader := rfl
@[simp] theorem placeState_position (s : State) : (placeState s).position = s.position := rfl
@[simp] theorem placeState_level (s : State) : (placeState s).level = s.level := rfl
@[simp] theorem placeState_tide (s : State) : (placeState s).tide = s.tide := rfl
@[simp] theorem placeState_peers (s : State) : (placeState s).peers = s.peers := rfl
@[simp] theorem placeState_order (s : State) : (placeState s).order = s.order := rfl
@[simp] theorem placeState_target (s : State) : (placeState s).target = s.target := rfl
@[simp] theorem placeState_grant (s : State) : (placeState s).grant = s.grant := rfl
@[simp] theorem placeState_drive (s : State) : (placeState s).drive = s.drive := rfl
@[simp] theorem placeState_plan (s : State) : (placeState s).plan = s.plan := rfl
@[simp] theorem placeState_modeCtl (s : State) : (placeState s).modeCtl = s.modeCtl := rfl
@[simp] theorem placeState_clocks (s : State) : (placeState s).clocks = s.clocks := rfl
@[simp] theorem placeState_pending (s : State) : (placeState s).pending = s.pending := rfl

@[simp] theorem serveReports_loader (s : State) : (serveReports s).loader = s.loader := by unfold serveReports; split <;> simp
@[simp] theorem serveReports_position (s : State) : (serveReports s).position = s.position := by unfold serveReports; split <;> simp
@[simp] theorem serveReports_level (s : State) : (serveReports s).level = s.level := by unfold serveReports; split <;> simp
@[simp] theorem serveReports_tide (s : State) : (serveReports s).tide = s.tide := by unfold serveReports; split <;> simp
@[simp] theorem serveReports_peers (s : State) : (serveReports s).peers = s.peers := by unfold serveReports; split <;> simp
@[simp] theorem serveReports_order (s : State) : (serveReports s).order = s.order := by unfold serveReports; split <;> simp
@[simp] theorem serveReports_target (s : State) : (serveReports s).target = s.target := by unfold serveReports; split <;> simp
@[simp] theorem serveReports_grant (s : State) : (serveReports s).grant = s.grant := by unfold serveReports; split <;> simp
@[simp] theorem serveReports_drive (s : State) : (serveReports s).drive = s.drive := by unfold serveReports; split <;> simp
@[simp] theorem serveReports_plan (s : State) : (serveReports s).plan = s.plan := by unfold serveReports; split <;> simp
@[simp] theorem serveReports_modeCtl (s : State) : (serveReports s).modeCtl = s.modeCtl := by unfold serveReports; split <;> simp
@[simp] theorem serveReports_clocks (s : State) : (serveReports s).clocks = s.clocks := by unfold serveReports; split <;> simp
@[simp] theorem serveReports_pending (s : State) : (serveReports s).pending = s.pending := by unfold serveReports; split <;> simp

@[simp] theorem recoverEncoder_loader (d : Side) (s : State) : (recoverEncoder d s).loader = s.loader := by
  unfold recoverEncoder; dsimp only; (repeat' split) <;> simp
@[simp] theorem recoverEncoder_level (d : Side) (s : State) : (recoverEncoder d s).level = s.level := by
  unfold recoverEncoder; dsimp only; (repeat' split) <;> simp
@[simp] theorem recoverEncoder_tide (d : Side) (s : State) : (recoverEncoder d s).tide = s.tide := by
  unfold recoverEncoder; dsimp only; (repeat' split) <;> simp
@[simp] theorem recoverEncoder_peers (d : Side) (s : State) : (recoverEncoder d s).peers = s.peers := by
  unfold recoverEncoder; dsimp only; (repeat' split) <;> simp
@[simp] theorem recoverEncoder_order (d : Side) (s : State) : (recoverEncoder d s).order = s.order := by
  unfold recoverEncoder; dsimp only; (repeat' split) <;> simp
@[simp] theorem recoverEncoder_target (d : Side) (s : State) : (recoverEncoder d s).target = s.target := by
  unfold recoverEncoder; dsimp only; (repeat' split) <;> simp
@[simp] theorem recoverEncoder_grant (d : Side) (s : State) : (recoverEncoder d s).grant = s.grant := by
  unfold recoverEncoder; dsimp only; (repeat' split) <;> simp
@[simp] theorem recoverEncoder_drive (d : Side) (s : State) : (recoverEncoder d s).drive = s.drive := by
  unfold recoverEncoder; dsimp only; (repeat' split) <;> simp
@[simp] theorem recoverEncoder_plan (d : Side) (s : State) : (recoverEncoder d s).plan = s.plan := by
  unfold recoverEncoder; dsimp only; (repeat' split) <;> simp
@[simp] theorem recoverEncoder_line (d : Side) (s : State) : (recoverEncoder d s).line = s.line := by
  unfold recoverEncoder; dsimp only; (repeat' split) <;> simp
@[simp] theorem recoverEncoder_clocks (d : Side) (s : State) : (recoverEncoder d s).clocks = s.clocks := by
  unfold recoverEncoder; dsimp only; (repeat' split) <;> simp
@[simp] theorem recoverEncoder_pending (d : Side) (s : State) : (recoverEncoder d s).pending = s.pending := by
  unfold recoverEncoder; dsimp only; (repeat' split) <;> simp

@[simp] theorem clearTravel_loader (img : Image) (s : State) : (clearTravel img s).loader = s.loader := by unfold clearTravel; split <;> simp
@[simp] theorem clearTravel_position (img : Image) (s : State) : (clearTravel img s).position = s.position := by unfold clearTravel; split <;> simp
@[simp] theorem clearTravel_level (img : Image) (s : State) : (clearTravel img s).level = s.level := by unfold clearTravel; split <;> simp
@[simp] theorem clearTravel_tide (img : Image) (s : State) : (clearTravel img s).tide = s.tide := by unfold clearTravel; split <;> simp
@[simp] theorem clearTravel_peers (img : Image) (s : State) : (clearTravel img s).peers = s.peers := by unfold clearTravel; split <;> simp
@[simp] theorem clearTravel_order (img : Image) (s : State) : (clearTravel img s).order = s.order := by unfold clearTravel; split <;> simp
@[simp] theorem clearTravel_target (img : Image) (s : State) : (clearTravel img s).target = s.target := by unfold clearTravel; split <;> simp
@[simp] theorem clearTravel_grant (img : Image) (s : State) : (clearTravel img s).grant = s.grant := by unfold clearTravel; split <;> simp
@[simp] theorem clearTravel_drive (img : Image) (s : State) : (clearTravel img s).drive = s.drive := by unfold clearTravel; split <;> simp
@[simp] theorem clearTravel_plan (img : Image) (s : State) : (clearTravel img s).plan = s.plan := by unfold clearTravel; split <;> simp
@[simp] theorem clearTravel_line (img : Image) (s : State) : (clearTravel img s).line = s.line := by unfold clearTravel; split <;> simp
@[simp] theorem clearTravel_clocks (img : Image) (s : State) : (clearTravel img s).clocks = s.clocks := by unfold clearTravel; split <;> simp
@[simp] theorem clearTravel_pending (img : Image) (s : State) : (clearTravel img s).pending = s.pending := by unfold clearTravel; split <;> simp

@[simp] theorem evaluatePosition_loader (img : Image) (s : State) : (evaluatePosition img s).loader = s.loader := by simp [evaluatePosition]
@[simp] theorem evaluatePosition_level (img : Image) (s : State) : (evaluatePosition img s).level = s.level := by simp [evaluatePosition]
@[simp] theorem evaluatePosition_peers (img : Image) (s : State) : (evaluatePosition img s).peers = s.peers := by simp [evaluatePosition]
@[simp] theorem evaluatePosition_line (img : Image) (s : State) : (evaluatePosition img s).line = s.line := by simp [evaluatePosition]
@[simp] theorem evaluatePosition_clocks (img : Image) (s : State) : (evaluatePosition img s).clocks = s.clocks := by simp [evaluatePosition]
@[simp] theorem evaluatePosition_pending (img : Image) (s : State) : (evaluatePosition img s).pending = s.pending := by simp [evaluatePosition]

@[simp] theorem endRead_loader (img : Image) (d : Side) (e : EncoderSide) (s : State) : (endRead img d e s).loader = s.loader := by
  unfold endRead; dsimp only; (repeat' split) <;> simp
@[simp] theorem endRead_level (img : Image) (d : Side) (e : EncoderSide) (s : State) : (endRead img d e s).level = s.level := by
  unfold endRead; dsimp only; (repeat' split) <;> simp
@[simp] theorem endRead_peers (img : Image) (d : Side) (e : EncoderSide) (s : State) : (endRead img d e s).peers = s.peers := by
  unfold endRead; dsimp only; (repeat' split) <;> simp
@[simp] theorem endRead_line (img : Image) (d : Side) (e : EncoderSide) (s : State) : (endRead img d e s).line = s.line := by
  unfold endRead; dsimp only; (repeat' split) <;> simp
@[simp] theorem endRead_clocks (img : Image) (d : Side) (e : EncoderSide) (s : State) : (endRead img d e s).clocks = s.clocks := by
  unfold endRead; dsimp only; (repeat' split) <;> simp
@[simp] theorem endRead_pending (img : Image) (d : Side) (e : EncoderSide) (s : State) : (endRead img d e s).pending = s.pending := by
  unfold endRead; dsimp only; (repeat' split) <;> simp

@[simp] theorem failOpenRead_loader (img : Image) (d : Side) (s : State) : (failOpenRead img d s).loader = s.loader := by
  unfold failOpenRead; dsimp only; (repeat' split) <;> simp
@[simp] theorem failOpenRead_level (img : Image) (d : Side) (s : State) : (failOpenRead img d s).level = s.level := by
  unfold failOpenRead; dsimp only; (repeat' split) <;> simp
@[simp] theorem failOpenRead_peers (img : Image) (d : Side) (s : State) : (failOpenRead img d s).peers = s.peers := by
  unfold failOpenRead; dsimp only; (repeat' split) <;> simp
@[simp] theorem failOpenRead_line (img : Image) (d : Side) (s : State) : (failOpenRead img d s).line = s.line := by
  unfold failOpenRead; dsimp only; (repeat' split) <;> simp
@[simp] theorem failOpenRead_clocks (img : Image) (d : Side) (s : State) : (failOpenRead img d s).clocks = s.clocks := by
  unfold failOpenRead; dsimp only; (repeat' split) <;> simp
@[simp] theorem failOpenRead_pending (img : Image) (d : Side) (s : State) : (failOpenRead img d s).pending = s.pending := by
  unfold failOpenRead; dsimp only; (repeat' split) <;> simp

@[simp] theorem takeReply_loader (img : Image) (r : Request) (raw : Half) (verifies : Bool) (s : State) : (takeReply img r raw verifies s).loader = s.loader := by
  unfold takeReply; dsimp only; (repeat' split) <;> simp
@[simp] theorem takeReply_level (img : Image) (r : Request) (raw : Half) (verifies : Bool) (s : State) : (takeReply img r raw verifies s).level = s.level := by
  unfold takeReply; dsimp only; (repeat' split) <;> simp
@[simp] theorem takeReply_peers (img : Image) (r : Request) (raw : Half) (verifies : Bool) (s : State) : (takeReply img r raw verifies s).peers = s.peers := by
  unfold takeReply; dsimp only; (repeat' split) <;> simp
@[simp] theorem takeReply_line (img : Image) (r : Request) (raw : Half) (verifies : Bool) (s : State) : (takeReply img r raw verifies s).line = s.line := by
  unfold takeReply; dsimp only; (repeat' split) <;> simp
@[simp] theorem takeReply_clocks (img : Image) (r : Request) (raw : Half) (verifies : Bool) (s : State) : (takeReply img r raw verifies s).clocks = s.clocks := by
  unfold takeReply; dsimp only; (repeat' split) <;> simp
@[simp] theorem takeReply_pending (img : Image) (r : Request) (raw : Half) (verifies : Bool) (s : State) : (takeReply img r raw verifies s).pending = s.pending := by
  unfold takeReply; dsimp only; (repeat' split) <;> simp

@[simp] theorem evalPosition_loader (inputs : TickInputs) (s : State) : (evalPosition inputs s).loader = s.loader := rfl
@[simp] theorem evalPosition_level (inputs : TickInputs) (s : State) : (evalPosition inputs s).level = s.level := rfl
@[simp] theorem evalPosition_tide (inputs : TickInputs) (s : State) : (evalPosition inputs s).tide = s.tide := rfl
@[simp] theorem evalPosition_peers (inputs : TickInputs) (s : State) : (evalPosition inputs s).peers = s.peers := rfl
@[simp] theorem evalPosition_order (inputs : TickInputs) (s : State) : (evalPosition inputs s).order = s.order := rfl
@[simp] theorem evalPosition_target (inputs : TickInputs) (s : State) : (evalPosition inputs s).target = s.target := rfl
@[simp] theorem evalPosition_grant (inputs : TickInputs) (s : State) : (evalPosition inputs s).grant = s.grant := rfl
@[simp] theorem evalPosition_drive (inputs : TickInputs) (s : State) : (evalPosition inputs s).drive = s.drive := rfl
@[simp] theorem evalPosition_plan (inputs : TickInputs) (s : State) : (evalPosition inputs s).plan = s.plan := rfl
@[simp] theorem evalPosition_modeCtl (inputs : TickInputs) (s : State) : (evalPosition inputs s).modeCtl = s.modeCtl := rfl
@[simp] theorem evalPosition_line (inputs : TickInputs) (s : State) : (evalPosition inputs s).line = s.line := rfl
@[simp] theorem evalPosition_clocks (inputs : TickInputs) (s : State) : (evalPosition inputs s).clocks = s.clocks := rfl
@[simp] theorem evalPosition_pending (inputs : TickInputs) (s : State) : (evalPosition inputs s).pending = s.pending := rfl

@[simp] theorem recoverChannel_loader (c : ChannelId) (s : State) : (recoverChannel c s).loader = s.loader := by
  unfold recoverChannel; dsimp only; (repeat' split) <;> simp
@[simp] theorem recoverChannel_position (c : ChannelId) (s : State) : (recoverChannel c s).position = s.position := by
  unfold recoverChannel; dsimp only; (repeat' split) <;> simp
@[simp] theorem recoverChannel_tide (c : ChannelId) (s : State) : (recoverChannel c s).tide = s.tide := by
  unfold recoverChannel; dsimp only; (repeat' split) <;> simp
@[simp] theorem recoverChannel_peers (c : ChannelId) (s : State) : (recoverChannel c s).peers = s.peers := by
  unfold recoverChannel; dsimp only; (repeat' split) <;> simp
@[simp] theorem recoverChannel_order (c : ChannelId) (s : State) : (recoverChannel c s).order = s.order := by
  unfold recoverChannel; dsimp only; (repeat' split) <;> simp
@[simp] theorem recoverChannel_target (c : ChannelId) (s : State) : (recoverChannel c s).target = s.target := by
  unfold recoverChannel; dsimp only; (repeat' split) <;> simp
@[simp] theorem recoverChannel_grant (c : ChannelId) (s : State) : (recoverChannel c s).grant = s.grant := by
  unfold recoverChannel; dsimp only; (repeat' split) <;> simp
@[simp] theorem recoverChannel_drive (c : ChannelId) (s : State) : (recoverChannel c s).drive = s.drive := by
  unfold recoverChannel; dsimp only; (repeat' split) <;> simp
@[simp] theorem recoverChannel_plan (c : ChannelId) (s : State) : (recoverChannel c s).plan = s.plan := by
  unfold recoverChannel; dsimp only; (repeat' split) <;> simp
@[simp] theorem recoverChannel_line (c : ChannelId) (s : State) : (recoverChannel c s).line = s.line := by
  unfold recoverChannel; dsimp only; (repeat' split) <;> simp
@[simp] theorem recoverChannel_clocks (c : ChannelId) (s : State) : (recoverChannel c s).clocks = s.clocks := by
  unfold recoverChannel; dsimp only; (repeat' split) <;> simp
@[simp] theorem recoverChannel_pending (c : ChannelId) (s : State) : (recoverChannel c s).pending = s.pending := by
  unfold recoverChannel; dsimp only; (repeat' split) <;> simp

@[simp] theorem selectLevels_loader (s : State) : (selectLevels s).loader = s.loader := rfl
@[simp] theorem selectLevels_position (s : State) : (selectLevels s).position = s.position := rfl
@[simp] theorem selectLevels_tide (s : State) : (selectLevels s).tide = s.tide := rfl
@[simp] theorem selectLevels_peers (s : State) : (selectLevels s).peers = s.peers := rfl
@[simp] theorem selectLevels_order (s : State) : (selectLevels s).order = s.order := rfl
@[simp] theorem selectLevels_target (s : State) : (selectLevels s).target = s.target := rfl
@[simp] theorem selectLevels_grant (s : State) : (selectLevels s).grant = s.grant := rfl
@[simp] theorem selectLevels_drive (s : State) : (selectLevels s).drive = s.drive := rfl
@[simp] theorem selectLevels_plan (s : State) : (selectLevels s).plan = s.plan := rfl
@[simp] theorem selectLevels_modeCtl (s : State) : (selectLevels s).modeCtl = s.modeCtl := rfl
@[simp] theorem selectLevels_line (s : State) : (selectLevels s).line = s.line := rfl
@[simp] theorem selectLevels_clocks (s : State) : (selectLevels s).clocks = s.clocks := rfl
@[simp] theorem selectLevels_pending (s : State) : (selectLevels s).pending = s.pending := rfl

@[simp] theorem qualifyTide_loader (p : Params) (s : State) : (qualifyTide p s).loader = s.loader := by unfold qualifyTide; (repeat' split) <;> simp
@[simp] theorem qualifyTide_position (p : Params) (s : State) : (qualifyTide p s).position = s.position := by unfold qualifyTide; (repeat' split) <;> simp
@[simp] theorem qualifyTide_level (p : Params) (s : State) : (qualifyTide p s).level = s.level := by unfold qualifyTide; (repeat' split) <;> simp
@[simp] theorem qualifyTide_peers (p : Params) (s : State) : (qualifyTide p s).peers = s.peers := by unfold qualifyTide; (repeat' split) <;> simp
@[simp] theorem qualifyTide_order (p : Params) (s : State) : (qualifyTide p s).order = s.order := by unfold qualifyTide; (repeat' split) <;> simp
@[simp] theorem qualifyTide_target (p : Params) (s : State) : (qualifyTide p s).target = s.target := by unfold qualifyTide; (repeat' split) <;> simp
@[simp] theorem qualifyTide_grant (p : Params) (s : State) : (qualifyTide p s).grant = s.grant := by unfold qualifyTide; (repeat' split) <;> simp
@[simp] theorem qualifyTide_drive (p : Params) (s : State) : (qualifyTide p s).drive = s.drive := by unfold qualifyTide; (repeat' split) <;> simp
@[simp] theorem qualifyTide_plan (p : Params) (s : State) : (qualifyTide p s).plan = s.plan := by unfold qualifyTide; (repeat' split) <;> simp
@[simp] theorem qualifyTide_modeCtl (p : Params) (s : State) : (qualifyTide p s).modeCtl = s.modeCtl := by unfold qualifyTide; (repeat' split) <;> simp
@[simp] theorem qualifyTide_clocks (p : Params) (s : State) : (qualifyTide p s).clocks = s.clocks := by unfold qualifyTide; (repeat' split) <;> simp
@[simp] theorem qualifyTide_pending (p : Params) (s : State) : (qualifyTide p s).pending = s.pending := by unfold qualifyTide; (repeat' split) <;> simp

@[simp] theorem evalTide_loader (p : Params) (s : State) : (evalTide p s).loader = s.loader := by unfold evalTide; (repeat' split) <;> simp
@[simp] theorem evalTide_position (p : Params) (s : State) : (evalTide p s).position = s.position := by unfold evalTide; (repeat' split) <;> simp
@[simp] theorem evalTide_level (p : Params) (s : State) : (evalTide p s).level = s.level := by unfold evalTide; (repeat' split) <;> simp
@[simp] theorem evalTide_peers (p : Params) (s : State) : (evalTide p s).peers = s.peers := by unfold evalTide; (repeat' split) <;> simp
@[simp] theorem evalTide_order (p : Params) (s : State) : (evalTide p s).order = s.order := by unfold evalTide; (repeat' split) <;> simp
@[simp] theorem evalTide_target (p : Params) (s : State) : (evalTide p s).target = s.target := by unfold evalTide; (repeat' split) <;> simp
@[simp] theorem evalTide_grant (p : Params) (s : State) : (evalTide p s).grant = s.grant := by unfold evalTide; (repeat' split) <;> simp
@[simp] theorem evalTide_drive (p : Params) (s : State) : (evalTide p s).drive = s.drive := by unfold evalTide; (repeat' split) <;> simp
@[simp] theorem evalTide_plan (p : Params) (s : State) : (evalTide p s).plan = s.plan := by unfold evalTide; (repeat' split) <;> simp
@[simp] theorem evalTide_modeCtl (p : Params) (s : State) : (evalTide p s).modeCtl = s.modeCtl := by unfold evalTide; (repeat' split) <;> simp
@[simp] theorem evalTide_clocks (p : Params) (s : State) : (evalTide p s).clocks = s.clocks := by unfold evalTide; (repeat' split) <;> simp
@[simp] theorem evalTide_pending (p : Params) (s : State) : (evalTide p s).pending = s.pending := by unfold evalTide; (repeat' split) <;> simp

@[simp] theorem sampleLevels_loader (img : Image) (upCode downCode : Half) (s : State) : (sampleLevels img upCode downCode s).loader = s.loader := by simp [sampleLevels]
@[simp] theorem sampleLevels_position (img : Image) (upCode downCode : Half) (s : State) : (sampleLevels img upCode downCode s).position = s.position := by simp [sampleLevels]
@[simp] theorem sampleLevels_peers (img : Image) (upCode downCode : Half) (s : State) : (sampleLevels img upCode downCode s).peers = s.peers := by simp [sampleLevels]
@[simp] theorem sampleLevels_clocks (img : Image) (upCode downCode : Half) (s : State) : (sampleLevels img upCode downCode s).clocks = s.clocks := by simp [sampleLevels]
@[simp] theorem sampleLevels_pending (img : Image) (upCode downCode : Half) (s : State) : (sampleLevels img upCode downCode s).pending = s.pending := by simp [sampleLevels]

@[simp] theorem levelSample_loader (img : Image) (upCode downCode : Half) (s : State) : (levelSample img upCode downCode s).loader = s.loader := by simp [levelSample]
@[simp] theorem levelSample_position (img : Image) (upCode downCode : Half) (s : State) : (levelSample img upCode downCode s).position = s.position := by simp [levelSample]
@[simp] theorem levelSample_peers (img : Image) (upCode downCode : Half) (s : State) : (levelSample img upCode downCode s).peers = s.peers := by simp [levelSample]
@[simp] theorem levelSample_clocks (img : Image) (upCode downCode : Half) (s : State) : (levelSample img upCode downCode s).clocks = s.clocks := by simp [levelSample]
@[simp] theorem levelSample_pending (img : Image) (upCode downCode : Half) (s : State) : (levelSample img upCode downCode s).pending = s.pending := by simp [levelSample]

@[simp] theorem nextSample_loader (s : State) : (nextSample s).loader = s.loader := by simp [nextSample]
@[simp] theorem nextSample_position (s : State) : (nextSample s).position = s.position := by simp [nextSample]
@[simp] theorem nextSample_level (s : State) : (nextSample s).level = s.level := by simp [nextSample]
@[simp] theorem nextSample_tide (s : State) : (nextSample s).tide = s.tide := by simp [nextSample]
@[simp] theorem nextSample_peers (s : State) : (nextSample s).peers = s.peers := by simp [nextSample]
@[simp] theorem nextSample_order (s : State) : (nextSample s).order = s.order := by simp [nextSample]
@[simp] theorem nextSample_target (s : State) : (nextSample s).target = s.target := by simp [nextSample]
@[simp] theorem nextSample_grant (s : State) : (nextSample s).grant = s.grant := by simp [nextSample]
@[simp] theorem nextSample_drive (s : State) : (nextSample s).drive = s.drive := by simp [nextSample]
@[simp] theorem nextSample_plan (s : State) : (nextSample s).plan = s.plan := by simp [nextSample]
@[simp] theorem nextSample_modeCtl (s : State) : (nextSample s).modeCtl = s.modeCtl := by simp [nextSample]
@[simp] theorem nextSample_line (s : State) : (nextSample s).line = s.line := by simp [nextSample]
@[simp] theorem nextSample_pending (s : State) : (nextSample s).pending = s.pending := by simp [nextSample]

@[simp] theorem ageRows_loader (s : State) : (ageRows s).loader = s.loader := rfl
@[simp] theorem ageRows_position (s : State) : (ageRows s).position = s.position := rfl
@[simp] theorem ageRows_level (s : State) : (ageRows s).level = s.level := rfl
@[simp] theorem ageRows_tide (s : State) : (ageRows s).tide = s.tide := rfl
@[simp] theorem ageRows_order (s : State) : (ageRows s).order = s.order := rfl
@[simp] theorem ageRows_target (s : State) : (ageRows s).target = s.target := rfl
@[simp] theorem ageRows_grant (s : State) : (ageRows s).grant = s.grant := rfl
@[simp] theorem ageRows_drive (s : State) : (ageRows s).drive = s.drive := rfl
@[simp] theorem ageRows_plan (s : State) : (ageRows s).plan = s.plan := rfl
@[simp] theorem ageRows_modeCtl (s : State) : (ageRows s).modeCtl = s.modeCtl := rfl
@[simp] theorem ageRows_line (s : State) : (ageRows s).line = s.line := rfl
@[simp] theorem ageRows_clocks (s : State) : (ageRows s).clocks = s.clocks := rfl
@[simp] theorem ageRows_pending (s : State) : (ageRows s).pending = s.pending := rfl

@[simp] theorem nextAgeing_loader (s : State) : (nextAgeing s).loader = s.loader := rfl
@[simp] theorem nextAgeing_position (s : State) : (nextAgeing s).position = s.position := rfl
@[simp] theorem nextAgeing_level (s : State) : (nextAgeing s).level = s.level := rfl
@[simp] theorem nextAgeing_tide (s : State) : (nextAgeing s).tide = s.tide := rfl
@[simp] theorem nextAgeing_peers (s : State) : (nextAgeing s).peers = s.peers := rfl
@[simp] theorem nextAgeing_order (s : State) : (nextAgeing s).order = s.order := rfl
@[simp] theorem nextAgeing_target (s : State) : (nextAgeing s).target = s.target := rfl
@[simp] theorem nextAgeing_grant (s : State) : (nextAgeing s).grant = s.grant := rfl
@[simp] theorem nextAgeing_drive (s : State) : (nextAgeing s).drive = s.drive := rfl
@[simp] theorem nextAgeing_plan (s : State) : (nextAgeing s).plan = s.plan := rfl
@[simp] theorem nextAgeing_modeCtl (s : State) : (nextAgeing s).modeCtl = s.modeCtl := rfl
@[simp] theorem nextAgeing_line (s : State) : (nextAgeing s).line = s.line := rfl
@[simp] theorem nextAgeing_pending (s : State) : (nextAgeing s).pending = s.pending := rfl

@[simp] theorem evalTarget_loader (img : Image) (raise lower : Bool) (s : State) : (evalTarget img raise lower s).loader = s.loader := rfl
@[simp] theorem evalTarget_position (img : Image) (raise lower : Bool) (s : State) : (evalTarget img raise lower s).position = s.position := rfl
@[simp] theorem evalTarget_level (img : Image) (raise lower : Bool) (s : State) : (evalTarget img raise lower s).level = s.level := rfl
@[simp] theorem evalTarget_tide (img : Image) (raise lower : Bool) (s : State) : (evalTarget img raise lower s).tide = s.tide := rfl
@[simp] theorem evalTarget_peers (img : Image) (raise lower : Bool) (s : State) : (evalTarget img raise lower s).peers = s.peers := rfl
@[simp] theorem evalTarget_order (img : Image) (raise lower : Bool) (s : State) : (evalTarget img raise lower s).order = s.order := rfl
@[simp] theorem evalTarget_grant (img : Image) (raise lower : Bool) (s : State) : (evalTarget img raise lower s).grant = s.grant := rfl
@[simp] theorem evalTarget_drive (img : Image) (raise lower : Bool) (s : State) : (evalTarget img raise lower s).drive = s.drive := rfl
@[simp] theorem evalTarget_modeCtl (img : Image) (raise lower : Bool) (s : State) : (evalTarget img raise lower s).modeCtl = s.modeCtl := rfl
@[simp] theorem evalTarget_line (img : Image) (raise lower : Bool) (s : State) : (evalTarget img raise lower s).line = s.line := rfl
@[simp] theorem evalTarget_clocks (img : Image) (raise lower : Bool) (s : State) : (evalTarget img raise lower s).clocks = s.clocks := rfl
@[simp] theorem evalTarget_pending (img : Image) (raise lower : Bool) (s : State) : (evalTarget img raise lower s).pending = s.pending := rfl

@[simp] theorem enterWant_loader (s : State) : (enterWant s).loader = s.loader := rfl
@[simp] theorem enterWant_position (s : State) : (enterWant s).position = s.position := rfl
@[simp] theorem enterWant_level (s : State) : (enterWant s).level = s.level := rfl
@[simp] theorem enterWant_tide (s : State) : (enterWant s).tide = s.tide := rfl
@[simp] theorem enterWant_peers (s : State) : (enterWant s).peers = s.peers := rfl
@[simp] theorem enterWant_order (s : State) : (enterWant s).order = s.order := rfl
@[simp] theorem enterWant_drive (s : State) : (enterWant s).drive = s.drive := rfl
@[simp] theorem enterWant_plan (s : State) : (enterWant s).plan = s.plan := rfl
@[simp] theorem enterWant_modeCtl (s : State) : (enterWant s).modeCtl = s.modeCtl := rfl
@[simp] theorem enterWant_line (s : State) : (enterWant s).line = s.line := rfl
@[simp] theorem enterWant_clocks (s : State) : (enterWant s).clocks = s.clocks := rfl
@[simp] theorem enterWant_pending (s : State) : (enterWant s).pending = s.pending := rfl

@[simp] theorem evalStill_loader (img : Image) (s : State) : (evalStill img s).loader = s.loader := by unfold evalStill; (repeat' split) <;> simp
@[simp] theorem evalStill_position (img : Image) (s : State) : (evalStill img s).position = s.position := by unfold evalStill; (repeat' split) <;> simp
@[simp] theorem evalStill_level (img : Image) (s : State) : (evalStill img s).level = s.level := by unfold evalStill; (repeat' split) <;> simp
@[simp] theorem evalStill_tide (img : Image) (s : State) : (evalStill img s).tide = s.tide := by unfold evalStill; (repeat' split) <;> simp
@[simp] theorem evalStill_peers (img : Image) (s : State) : (evalStill img s).peers = s.peers := by unfold evalStill; (repeat' split) <;> simp
@[simp] theorem evalStill_order (img : Image) (s : State) : (evalStill img s).order = s.order := by unfold evalStill; (repeat' split) <;> simp
@[simp] theorem evalStill_drive (img : Image) (s : State) : (evalStill img s).drive = s.drive := by unfold evalStill; (repeat' split) <;> simp
@[simp] theorem evalStill_plan (img : Image) (s : State) : (evalStill img s).plan = s.plan := by unfold evalStill; (repeat' split) <;> simp
@[simp] theorem evalStill_modeCtl (img : Image) (s : State) : (evalStill img s).modeCtl = s.modeCtl := by unfold evalStill; (repeat' split) <;> simp
@[simp] theorem evalStill_line (img : Image) (s : State) : (evalStill img s).line = s.line := by unfold evalStill; (repeat' split) <;> simp
@[simp] theorem evalStill_clocks (img : Image) (s : State) : (evalStill img s).clocks = s.clocks := by unfold evalStill; (repeat' split) <;> simp
@[simp] theorem evalStill_pending (img : Image) (s : State) : (evalStill img s).pending = s.pending := by unfold evalStill; (repeat' split) <;> simp

@[simp] theorem evalWant_loader (img : Image) (s : State) : (evalWant img s).loader = s.loader := by unfold evalWant; (repeat' split) <;> simp
@[simp] theorem evalWant_position (img : Image) (s : State) : (evalWant img s).position = s.position := by unfold evalWant; (repeat' split) <;> simp
@[simp] theorem evalWant_level (img : Image) (s : State) : (evalWant img s).level = s.level := by unfold evalWant; (repeat' split) <;> simp
@[simp] theorem evalWant_tide (img : Image) (s : State) : (evalWant img s).tide = s.tide := by unfold evalWant; (repeat' split) <;> simp
@[simp] theorem evalWant_peers (img : Image) (s : State) : (evalWant img s).peers = s.peers := by unfold evalWant; (repeat' split) <;> simp
@[simp] theorem evalWant_order (img : Image) (s : State) : (evalWant img s).order = s.order := by unfold evalWant; (repeat' split) <;> simp
@[simp] theorem evalWant_target (img : Image) (s : State) : (evalWant img s).target = s.target := by unfold evalWant; (repeat' split) <;> simp
@[simp] theorem evalWant_plan (img : Image) (s : State) : (evalWant img s).plan = s.plan := by unfold evalWant; (repeat' split) <;> simp
@[simp] theorem evalWant_line (img : Image) (s : State) : (evalWant img s).line = s.line := by unfold evalWant; (repeat' split) <;> simp
@[simp] theorem evalWant_clocks (img : Image) (s : State) : (evalWant img s).clocks = s.clocks := by unfold evalWant; (repeat' split) <;> simp
@[simp] theorem evalWant_pending (img : Image) (s : State) : (evalWant img s).pending = s.pending := by unfold evalWant; (repeat' split) <;> simp

@[simp] theorem startPump_loader (s : State) : (startPump s).loader = s.loader := by unfold startPump; split <;> simp
@[simp] theorem startPump_position (s : State) : (startPump s).position = s.position := by unfold startPump; split <;> simp
@[simp] theorem startPump_level (s : State) : (startPump s).level = s.level := by unfold startPump; split <;> simp
@[simp] theorem startPump_tide (s : State) : (startPump s).tide = s.tide := by unfold startPump; split <;> simp
@[simp] theorem startPump_peers (s : State) : (startPump s).peers = s.peers := by unfold startPump; split <;> simp
@[simp] theorem startPump_order (s : State) : (startPump s).order = s.order := by unfold startPump; split <;> simp
@[simp] theorem startPump_target (s : State) : (startPump s).target = s.target := by unfold startPump; split <;> simp
@[simp] theorem startPump_drive (s : State) : (startPump s).drive = s.drive := by unfold startPump; split <;> simp
@[simp] theorem startPump_plan (s : State) : (startPump s).plan = s.plan := by unfold startPump; split <;> simp
@[simp] theorem startPump_modeCtl (s : State) : (startPump s).modeCtl = s.modeCtl := by unfold startPump; split <;> simp
@[simp] theorem startPump_line (s : State) : (startPump s).line = s.line := by unfold startPump; split <;> simp
@[simp] theorem startPump_clocks (s : State) : (startPump s).clocks = s.clocks := by unfold startPump; split <;> simp
@[simp] theorem startPump_pending (s : State) : (startPump s).pending = s.pending := by unfold startPump; split <;> simp

@[simp] theorem judgePump_loader (img : Image) (s : State) : (judgePump img s).loader = s.loader := by unfold judgePump; split <;> simp
@[simp] theorem judgePump_position (img : Image) (s : State) : (judgePump img s).position = s.position := by unfold judgePump; split <;> simp
@[simp] theorem judgePump_level (img : Image) (s : State) : (judgePump img s).level = s.level := by unfold judgePump; split <;> simp
@[simp] theorem judgePump_peers (img : Image) (s : State) : (judgePump img s).peers = s.peers := by unfold judgePump; split <;> simp
@[simp] theorem judgePump_line (img : Image) (s : State) : (judgePump img s).line = s.line := by unfold judgePump; split <;> simp
@[simp] theorem judgePump_clocks (img : Image) (s : State) : (judgePump img s).clocks = s.clocks := by unfold judgePump; split <;> simp
@[simp] theorem judgePump_pending (img : Image) (s : State) : (judgePump img s).pending = s.pending := by unfold judgePump; split <;> simp

@[simp] theorem proceed_loader (img : Image) (pumpReady : Bool) (s : State) : (proceed img pumpReady s).loader = s.loader := by unfold proceed; (repeat' split) <;> simp
@[simp] theorem proceed_position (img : Image) (pumpReady : Bool) (s : State) : (proceed img pumpReady s).position = s.position := by unfold proceed; (repeat' split) <;> simp
@[simp] theorem proceed_level (img : Image) (pumpReady : Bool) (s : State) : (proceed img pumpReady s).level = s.level := by unfold proceed; (repeat' split) <;> simp
@[simp] theorem proceed_peers (img : Image) (pumpReady : Bool) (s : State) : (proceed img pumpReady s).peers = s.peers := by unfold proceed; (repeat' split) <;> simp
@[simp] theorem proceed_line (img : Image) (pumpReady : Bool) (s : State) : (proceed img pumpReady s).line = s.line := by unfold proceed; (repeat' split) <;> simp
@[simp] theorem proceed_clocks (img : Image) (pumpReady : Bool) (s : State) : (proceed img pumpReady s).clocks = s.clocks := by unfold proceed; (repeat' split) <;> simp
@[simp] theorem proceed_pending (img : Image) (pumpReady : Bool) (s : State) : (proceed img pumpReady s).pending = s.pending := by unfold proceed; (repeat' split) <;> simp

@[simp] theorem yieldClaim_loader (s : State) : (yieldClaim s).loader = s.loader := rfl
@[simp] theorem yieldClaim_position (s : State) : (yieldClaim s).position = s.position := rfl
@[simp] theorem yieldClaim_level (s : State) : (yieldClaim s).level = s.level := rfl
@[simp] theorem yieldClaim_tide (s : State) : (yieldClaim s).tide = s.tide := rfl
@[simp] theorem yieldClaim_peers (s : State) : (yieldClaim s).peers = s.peers := rfl
@[simp] theorem yieldClaim_order (s : State) : (yieldClaim s).order = s.order := rfl
@[simp] theorem yieldClaim_target (s : State) : (yieldClaim s).target = s.target := rfl
@[simp] theorem yieldClaim_drive (s : State) : (yieldClaim s).drive = s.drive := rfl
@[simp] theorem yieldClaim_plan (s : State) : (yieldClaim s).plan = s.plan := rfl
@[simp] theorem yieldClaim_modeCtl (s : State) : (yieldClaim s).modeCtl = s.modeCtl := rfl
@[simp] theorem yieldClaim_line (s : State) : (yieldClaim s).line = s.line := rfl
@[simp] theorem yieldClaim_clocks (s : State) : (yieldClaim s).clocks = s.clocks := rfl
@[simp] theorem yieldClaim_pending (s : State) : (yieldClaim s).pending = s.pending := rfl

@[simp] theorem evalWarn_loader (img : Image) (pumpReady : Bool) (s : State) : (evalWarn img pumpReady s).loader = s.loader := by unfold evalWarn; (repeat' split) <;> simp
@[simp] theorem evalWarn_position (img : Image) (pumpReady : Bool) (s : State) : (evalWarn img pumpReady s).position = s.position := by unfold evalWarn; (repeat' split) <;> simp
@[simp] theorem evalWarn_level (img : Image) (pumpReady : Bool) (s : State) : (evalWarn img pumpReady s).level = s.level := by unfold evalWarn; (repeat' split) <;> simp
@[simp] theorem evalWarn_peers (img : Image) (pumpReady : Bool) (s : State) : (evalWarn img pumpReady s).peers = s.peers := by unfold evalWarn; (repeat' split) <;> simp
@[simp] theorem evalWarn_line (img : Image) (pumpReady : Bool) (s : State) : (evalWarn img pumpReady s).line = s.line := by unfold evalWarn; (repeat' split) <;> simp
@[simp] theorem evalWarn_clocks (img : Image) (pumpReady : Bool) (s : State) : (evalWarn img pumpReady s).clocks = s.clocks := by unfold evalWarn; (repeat' split) <;> simp
@[simp] theorem evalWarn_pending (img : Image) (pumpReady : Bool) (s : State) : (evalWarn img pumpReady s).pending = s.pending := by unfold evalWarn; (repeat' split) <;> simp

@[simp] theorem pumpInMotion_loader (img : Image) (pumpReady : Bool) (s : State) : (pumpInMotion img pumpReady s).loader = s.loader := by unfold pumpInMotion; split <;> simp
@[simp] theorem pumpInMotion_position (img : Image) (pumpReady : Bool) (s : State) : (pumpInMotion img pumpReady s).position = s.position := by unfold pumpInMotion; split <;> simp
@[simp] theorem pumpInMotion_level (img : Image) (pumpReady : Bool) (s : State) : (pumpInMotion img pumpReady s).level = s.level := by unfold pumpInMotion; split <;> simp
@[simp] theorem pumpInMotion_peers (img : Image) (pumpReady : Bool) (s : State) : (pumpInMotion img pumpReady s).peers = s.peers := by unfold pumpInMotion; split <;> simp
@[simp] theorem pumpInMotion_line (img : Image) (pumpReady : Bool) (s : State) : (pumpInMotion img pumpReady s).line = s.line := by unfold pumpInMotion; split <;> simp
@[simp] theorem pumpInMotion_clocks (img : Image) (pumpReady : Bool) (s : State) : (pumpInMotion img pumpReady s).clocks = s.clocks := by unfold pumpInMotion; split <;> simp
@[simp] theorem pumpInMotion_pending (img : Image) (pumpReady : Bool) (s : State) : (pumpInMotion img pumpReady s).pending = s.pending := by unfold pumpInMotion; split <;> simp

@[simp] theorem evalMoving_loader (img : Image) (pumpReady : Bool) (s : State) : (evalMoving img pumpReady s).loader = s.loader := by unfold evalMoving; split <;> simp
@[simp] theorem evalMoving_position (img : Image) (pumpReady : Bool) (s : State) : (evalMoving img pumpReady s).position = s.position := by unfold evalMoving; split <;> simp
@[simp] theorem evalMoving_level (img : Image) (pumpReady : Bool) (s : State) : (evalMoving img pumpReady s).level = s.level := by unfold evalMoving; split <;> simp
@[simp] theorem evalMoving_peers (img : Image) (pumpReady : Bool) (s : State) : (evalMoving img pumpReady s).peers = s.peers := by unfold evalMoving; split <;> simp
@[simp] theorem evalMoving_line (img : Image) (pumpReady : Bool) (s : State) : (evalMoving img pumpReady s).line = s.line := by unfold evalMoving; split <;> simp
@[simp] theorem evalMoving_clocks (img : Image) (pumpReady : Bool) (s : State) : (evalMoving img pumpReady s).clocks = s.clocks := by unfold evalMoving; split <;> simp
@[simp] theorem evalMoving_pending (img : Image) (pumpReady : Bool) (s : State) : (evalMoving img pumpReady s).pending = s.pending := by unfold evalMoving; split <;> simp

@[simp] theorem evalGrant_loader (img : Image) (pumpReady : Bool) (s : State) : (evalGrant img pumpReady s).loader = s.loader := by unfold evalGrant; (repeat' split) <;> simp
@[simp] theorem evalGrant_position (img : Image) (pumpReady : Bool) (s : State) : (evalGrant img pumpReady s).position = s.position := by unfold evalGrant; (repeat' split) <;> simp
@[simp] theorem evalGrant_level (img : Image) (pumpReady : Bool) (s : State) : (evalGrant img pumpReady s).level = s.level := by unfold evalGrant; (repeat' split) <;> simp
@[simp] theorem evalGrant_peers (img : Image) (pumpReady : Bool) (s : State) : (evalGrant img pumpReady s).peers = s.peers := by unfold evalGrant; (repeat' split) <;> simp
@[simp] theorem evalGrant_line (img : Image) (pumpReady : Bool) (s : State) : (evalGrant img pumpReady s).line = s.line := by unfold evalGrant; (repeat' split) <;> simp
@[simp] theorem evalGrant_clocks (img : Image) (pumpReady : Bool) (s : State) : (evalGrant img pumpReady s).clocks = s.clocks := by unfold evalGrant; (repeat' split) <;> simp
@[simp] theorem evalGrant_pending (img : Image) (pumpReady : Bool) (s : State) : (evalGrant img pumpReady s).pending = s.pending := by unfold evalGrant; (repeat' split) <;> simp

@[simp] theorem checkReadback_loader (img : Image) (rbL rbR : Half) (s : State) : (checkReadback img rbL rbR s).loader = s.loader := by unfold checkReadback; split <;> simp
@[simp] theorem checkReadback_position (img : Image) (rbL rbR : Half) (s : State) : (checkReadback img rbL rbR s).position = s.position := by unfold checkReadback; split <;> simp
@[simp] theorem checkReadback_level (img : Image) (rbL rbR : Half) (s : State) : (checkReadback img rbL rbR s).level = s.level := by unfold checkReadback; split <;> simp
@[simp] theorem checkReadback_tide (img : Image) (rbL rbR : Half) (s : State) : (checkReadback img rbL rbR s).tide = s.tide := by unfold checkReadback; split <;> simp
@[simp] theorem checkReadback_peers (img : Image) (rbL rbR : Half) (s : State) : (checkReadback img rbL rbR s).peers = s.peers := by unfold checkReadback; split <;> simp
@[simp] theorem checkReadback_order (img : Image) (rbL rbR : Half) (s : State) : (checkReadback img rbL rbR s).order = s.order := by unfold checkReadback; split <;> simp
@[simp] theorem checkReadback_target (img : Image) (rbL rbR : Half) (s : State) : (checkReadback img rbL rbR s).target = s.target := by unfold checkReadback; split <;> simp
@[simp] theorem checkReadback_grant (img : Image) (rbL rbR : Half) (s : State) : (checkReadback img rbL rbR s).grant = s.grant := by unfold checkReadback; split <;> simp
@[simp] theorem checkReadback_plan (img : Image) (rbL rbR : Half) (s : State) : (checkReadback img rbL rbR s).plan = s.plan := by unfold checkReadback; split <;> simp
@[simp] theorem checkReadback_modeCtl (img : Image) (rbL rbR : Half) (s : State) : (checkReadback img rbL rbR s).modeCtl = s.modeCtl := by unfold checkReadback; split <;> simp
@[simp] theorem checkReadback_line (img : Image) (rbL rbR : Half) (s : State) : (checkReadback img rbL rbR s).line = s.line := by unfold checkReadback; split <;> simp
@[simp] theorem checkReadback_clocks (img : Image) (rbL rbR : Half) (s : State) : (checkReadback img rbL rbR s).clocks = s.clocks := by unfold checkReadback; split <;> simp
@[simp] theorem checkReadback_pending (img : Image) (rbL rbR : Half) (s : State) : (checkReadback img rbL rbR s).pending = s.pending := by unfold checkReadback; split <;> simp

@[simp] theorem clearSkew_loader (img : Image) (s : State) : (clearSkew img s).loader = s.loader := by unfold clearSkew; split <;> simp
@[simp] theorem clearSkew_position (img : Image) (s : State) : (clearSkew img s).position = s.position := by unfold clearSkew; split <;> simp
@[simp] theorem clearSkew_level (img : Image) (s : State) : (clearSkew img s).level = s.level := by unfold clearSkew; split <;> simp
@[simp] theorem clearSkew_tide (img : Image) (s : State) : (clearSkew img s).tide = s.tide := by unfold clearSkew; split <;> simp
@[simp] theorem clearSkew_peers (img : Image) (s : State) : (clearSkew img s).peers = s.peers := by unfold clearSkew; split <;> simp
@[simp] theorem clearSkew_order (img : Image) (s : State) : (clearSkew img s).order = s.order := by unfold clearSkew; split <;> simp
@[simp] theorem clearSkew_target (img : Image) (s : State) : (clearSkew img s).target = s.target := by unfold clearSkew; split <;> simp
@[simp] theorem clearSkew_grant (img : Image) (s : State) : (clearSkew img s).grant = s.grant := by unfold clearSkew; split <;> simp
@[simp] theorem clearSkew_drive (img : Image) (s : State) : (clearSkew img s).drive = s.drive := by unfold clearSkew; split <;> simp
@[simp] theorem clearSkew_plan (img : Image) (s : State) : (clearSkew img s).plan = s.plan := by unfold clearSkew; split <;> simp
@[simp] theorem clearSkew_line (img : Image) (s : State) : (clearSkew img s).line = s.line := by unfold clearSkew; split <;> simp
@[simp] theorem clearSkew_clocks (img : Image) (s : State) : (clearSkew img s).clocks = s.clocks := by unfold clearSkew; split <;> simp
@[simp] theorem clearSkew_pending (img : Image) (s : State) : (clearSkew img s).pending = s.pending := by unfold clearSkew; split <;> simp

@[simp] theorem evalDrive_loader (img : Image) (rbL rbR : Half) (s : State) : (evalDrive img rbL rbR s).loader = s.loader := by simp [evalDrive]
@[simp] theorem evalDrive_position (img : Image) (rbL rbR : Half) (s : State) : (evalDrive img rbL rbR s).position = s.position := by simp [evalDrive]
@[simp] theorem evalDrive_level (img : Image) (rbL rbR : Half) (s : State) : (evalDrive img rbL rbR s).level = s.level := by simp [evalDrive]
@[simp] theorem evalDrive_peers (img : Image) (rbL rbR : Half) (s : State) : (evalDrive img rbL rbR s).peers = s.peers := by simp [evalDrive]
@[simp] theorem evalDrive_line (img : Image) (rbL rbR : Half) (s : State) : (evalDrive img rbL rbR s).line = s.line := by simp [evalDrive]
@[simp] theorem evalDrive_clocks (img : Image) (rbL rbR : Half) (s : State) : (evalDrive img rbL rbR s).clocks = s.clocks := by simp [evalDrive]
@[simp] theorem evalDrive_pending (img : Image) (rbL rbR : Half) (s : State) : (evalDrive img rbL rbR s).pending = s.pending := by simp [evalDrive]

@[simp] theorem setGrantAhead_loader (m : Nat) (s : State) : (setGrantAhead m s).loader = s.loader := rfl
@[simp] theorem setGrantAhead_position (m : Nat) (s : State) : (setGrantAhead m s).position = s.position := rfl
@[simp] theorem setGrantAhead_level (m : Nat) (s : State) : (setGrantAhead m s).level = s.level := rfl
@[simp] theorem setGrantAhead_tide (m : Nat) (s : State) : (setGrantAhead m s).tide = s.tide := rfl
@[simp] theorem setGrantAhead_peers (m : Nat) (s : State) : (setGrantAhead m s).peers = s.peers := rfl
@[simp] theorem setGrantAhead_order (m : Nat) (s : State) : (setGrantAhead m s).order = s.order := rfl
@[simp] theorem setGrantAhead_target (m : Nat) (s : State) : (setGrantAhead m s).target = s.target := rfl
@[simp] theorem setGrantAhead_grant (m : Nat) (s : State) : (setGrantAhead m s).grant = s.grant := rfl
@[simp] theorem setGrantAhead_drive (m : Nat) (s : State) : (setGrantAhead m s).drive = s.drive := rfl
@[simp] theorem setGrantAhead_plan (m : Nat) (s : State) : (setGrantAhead m s).plan = s.plan := rfl
@[simp] theorem setGrantAhead_modeCtl (m : Nat) (s : State) : (setGrantAhead m s).modeCtl = s.modeCtl := rfl
@[simp] theorem setGrantAhead_line (m : Nat) (s : State) : (setGrantAhead m s).line = s.line := rfl
@[simp] theorem setGrantAhead_pending (m : Nat) (s : State) : (setGrantAhead m s).pending = s.pending := rfl

@[simp] theorem setDriveAhead_loader (m : Nat) (s : State) : (setDriveAhead m s).loader = s.loader := rfl
@[simp] theorem setDriveAhead_position (m : Nat) (s : State) : (setDriveAhead m s).position = s.position := rfl
@[simp] theorem setDriveAhead_level (m : Nat) (s : State) : (setDriveAhead m s).level = s.level := rfl
@[simp] theorem setDriveAhead_tide (m : Nat) (s : State) : (setDriveAhead m s).tide = s.tide := rfl
@[simp] theorem setDriveAhead_peers (m : Nat) (s : State) : (setDriveAhead m s).peers = s.peers := rfl
@[simp] theorem setDriveAhead_order (m : Nat) (s : State) : (setDriveAhead m s).order = s.order := rfl
@[simp] theorem setDriveAhead_target (m : Nat) (s : State) : (setDriveAhead m s).target = s.target := rfl
@[simp] theorem setDriveAhead_grant (m : Nat) (s : State) : (setDriveAhead m s).grant = s.grant := rfl
@[simp] theorem setDriveAhead_drive (m : Nat) (s : State) : (setDriveAhead m s).drive = s.drive := rfl
@[simp] theorem setDriveAhead_plan (m : Nat) (s : State) : (setDriveAhead m s).plan = s.plan := rfl
@[simp] theorem setDriveAhead_modeCtl (m : Nat) (s : State) : (setDriveAhead m s).modeCtl = s.modeCtl := rfl
@[simp] theorem setDriveAhead_line (m : Nat) (s : State) : (setDriveAhead m s).line = s.line := rfl
@[simp] theorem setDriveAhead_pending (m : Nat) (s : State) : (setDriveAhead m s).pending = s.pending := rfl

@[simp] theorem setPlanAhead_loader (m : Nat) (s : State) : (setPlanAhead m s).loader = s.loader := rfl
@[simp] theorem setPlanAhead_position (m : Nat) (s : State) : (setPlanAhead m s).position = s.position := rfl
@[simp] theorem setPlanAhead_level (m : Nat) (s : State) : (setPlanAhead m s).level = s.level := rfl
@[simp] theorem setPlanAhead_tide (m : Nat) (s : State) : (setPlanAhead m s).tide = s.tide := rfl
@[simp] theorem setPlanAhead_peers (m : Nat) (s : State) : (setPlanAhead m s).peers = s.peers := rfl
@[simp] theorem setPlanAhead_order (m : Nat) (s : State) : (setPlanAhead m s).order = s.order := rfl
@[simp] theorem setPlanAhead_target (m : Nat) (s : State) : (setPlanAhead m s).target = s.target := rfl
@[simp] theorem setPlanAhead_grant (m : Nat) (s : State) : (setPlanAhead m s).grant = s.grant := rfl
@[simp] theorem setPlanAhead_drive (m : Nat) (s : State) : (setPlanAhead m s).drive = s.drive := rfl
@[simp] theorem setPlanAhead_plan (m : Nat) (s : State) : (setPlanAhead m s).plan = s.plan := rfl
@[simp] theorem setPlanAhead_modeCtl (m : Nat) (s : State) : (setPlanAhead m s).modeCtl = s.modeCtl := rfl
@[simp] theorem setPlanAhead_line (m : Nat) (s : State) : (setPlanAhead m s).line = s.line := rfl
@[simp] theorem setPlanAhead_pending (m : Nat) (s : State) : (setPlanAhead m s).pending = s.pending := rfl

@[simp] theorem runToTick_level (m : Nat) (s : State) : (runToTick m s).level = s.level := by simp [runToTick]
@[simp] theorem runToTick_tide (m : Nat) (s : State) : (runToTick m s).tide = s.tide := by simp [runToTick]
@[simp] theorem runToTick_target (m : Nat) (s : State) : (runToTick m s).target = s.target := by simp [runToTick]
@[simp] theorem runToTick_plan (m : Nat) (s : State) : (runToTick m s).plan = s.plan := by simp [runToTick]
@[simp] theorem runToTick_pending (m : Nat) (s : State) : (runToTick m s).pending = s.pending := by simp [runToTick]

@[simp] theorem evalBlock_loader (img : Image) (inputs : TickInputs) (b : Block) (s : State) : (evalBlock img inputs b s).loader = s.loader := by
  unfold evalBlock unlessAhead
  split <;> try split
  all_goals simp
@[simp] theorem evalBlock_level (img : Image) (inputs : TickInputs) (b : Block) (s : State) : (evalBlock img inputs b s).level = s.level := by
  unfold evalBlock unlessAhead
  split <;> try split
  all_goals simp
@[simp] theorem evalBlock_peers (img : Image) (inputs : TickInputs) (b : Block) (s : State) : (evalBlock img inputs b s).peers = s.peers := by
  unfold evalBlock unlessAhead
  split <;> try split
  all_goals simp
/-- A block's evaluation does nothing to the line but set the mark (R43). -/
theorem evalBlock_marks (img : Image) (inputs : TickInputs) (b : Block) (s : State) :
    MarkOnly s.line (evalBlock img inputs b s).line := by
  unfold evalBlock unlessAhead
  split <;> try split
  all_goals first | exact evalPlan_marks _ _ | (apply Or.inl; simp)
/-- The evaluations of a tick do nothing to the line but set the mark (R43). -/
theorem evalTick_marks (img : Image) (inputs : TickInputs) (s : State) : MarkOnly s.line (evalTick img inputs s).line := by
  unfold evalTick
  generalize tickOrder inputs.order = bs
  induction bs generalizing s with
  | nil => exact .inl rfl
  | cons b bs ih => exact (evalBlock_marks img inputs b s).trans (ih _)
@[simp] theorem evalBlock_pending (img : Image) (inputs : TickInputs) (b : Block) (s : State) : (evalBlock img inputs b s).pending = s.pending := by
  unfold evalBlock unlessAhead
  split <;> try split
  all_goals simp

/-- An evaluation leaves the clocks alone but for the note that it was made ahead of its tick. -/
theorem evalBlock_clocks (img : Image) (inputs : TickInputs) (b : Block) (s : State) :
    (evalBlock img inputs b s).clocks =
      { s.clocks with
        grantAhead := if b = .grant then s.clocks.grantAhead - Config.tickMs else s.clocks.grantAhead
        driveAhead := if b = .drive then s.clocks.driveAhead - Config.tickMs else s.clocks.driveAhead
        planAhead := if b = .plan then s.clocks.planAhead - Config.tickMs else s.clocks.planAhead } := by
  cases b <;> simp only [evalBlock, unlessAhead] <;> (try split) <;> simp_all [setGrantAhead, setDriveAhead, setPlanAhead]

@[simp] theorem nextTick_loader (s : State) : (nextTick s).loader = s.loader := by simp [nextTick]
@[simp] theorem nextTick_position (s : State) : (nextTick s).position = s.position := by simp [nextTick]
@[simp] theorem nextTick_level (s : State) : (nextTick s).level = s.level := by simp [nextTick]
@[simp] theorem nextTick_tide (s : State) : (nextTick s).tide = s.tide := by simp [nextTick]
@[simp] theorem nextTick_peers (s : State) : (nextTick s).peers = s.peers := by simp [nextTick]
@[simp] theorem nextTick_order (s : State) : (nextTick s).order = s.order := by simp [nextTick]
@[simp] theorem nextTick_target (s : State) : (nextTick s).target = s.target := by simp [nextTick]
@[simp] theorem nextTick_grant (s : State) : (nextTick s).grant = s.grant := by simp [nextTick]
@[simp] theorem nextTick_drive (s : State) : (nextTick s).drive = s.drive := by simp [nextTick]
@[simp] theorem nextTick_plan (s : State) : (nextTick s).plan = s.plan := by simp [nextTick]
@[simp] theorem nextTick_modeCtl (s : State) : (nextTick s).modeCtl = s.modeCtl := by simp [nextTick]
@[simp] theorem nextTick_line (s : State) : (nextTick s).line = s.line := by simp [nextTick]
@[simp] theorem nextTick_pending (s : State) : (nextTick s).pending = s.pending := by simp [nextTick]

@[simp] theorem endOpenReads_loader (img : Image) (s : State) : (endOpenReads img s).loader = s.loader := by simp [endOpenReads]
@[simp] theorem endOpenReads_level (img : Image) (s : State) : (endOpenReads img s).level = s.level := by simp [endOpenReads]
@[simp] theorem endOpenReads_peers (img : Image) (s : State) : (endOpenReads img s).peers = s.peers := by simp [endOpenReads]
@[simp] theorem endOpenReads_line (img : Image) (s : State) : (endOpenReads img s).line = s.line := by simp [endOpenReads]
@[simp] theorem endOpenReads_clocks (img : Image) (s : State) : (endOpenReads img s).clocks = s.clocks := by simp [endOpenReads]
@[simp] theorem endOpenReads_pending (img : Image) (s : State) : (endOpenReads img s).pending = s.pending := by simp [endOpenReads]

@[simp] theorem lineBusy_loader (s : State) : (lineBusy s).loader = s.loader := rfl
@[simp] theorem lineBusy_position (s : State) : (lineBusy s).position = s.position := rfl
@[simp] theorem lineBusy_level (s : State) : (lineBusy s).level = s.level := rfl
@[simp] theorem lineBusy_tide (s : State) : (lineBusy s).tide = s.tide := rfl
@[simp] theorem lineBusy_peers (s : State) : (lineBusy s).peers = s.peers := rfl
@[simp] theorem lineBusy_order (s : State) : (lineBusy s).order = s.order := rfl
@[simp] theorem lineBusy_target (s : State) : (lineBusy s).target = s.target := rfl
@[simp] theorem lineBusy_grant (s : State) : (lineBusy s).grant = s.grant := rfl
@[simp] theorem lineBusy_drive (s : State) : (lineBusy s).drive = s.drive := rfl
@[simp] theorem lineBusy_plan (s : State) : (lineBusy s).plan = s.plan := rfl
@[simp] theorem lineBusy_modeCtl (s : State) : (lineBusy s).modeCtl = s.modeCtl := rfl
@[simp] theorem lineBusy_clocks (s : State) : (lineBusy s).clocks = s.clocks := rfl
@[simp] theorem lineBusy_pending (s : State) : (lineBusy s).pending = s.pending := rfl

@[simp] theorem frameArrives_loader (s : State) : (frameArrives s).loader = s.loader := rfl
@[simp] theorem frameArrives_position (s : State) : (frameArrives s).position = s.position := rfl
@[simp] theorem frameArrives_level (s : State) : (frameArrives s).level = s.level := rfl
@[simp] theorem frameArrives_tide (s : State) : (frameArrives s).tide = s.tide := rfl
@[simp] theorem frameArrives_peers (s : State) : (frameArrives s).peers = s.peers := rfl
@[simp] theorem frameArrives_order (s : State) : (frameArrives s).order = s.order := rfl
@[simp] theorem frameArrives_target (s : State) : (frameArrives s).target = s.target := rfl
@[simp] theorem frameArrives_grant (s : State) : (frameArrives s).grant = s.grant := rfl
@[simp] theorem frameArrives_drive (s : State) : (frameArrives s).drive = s.drive := rfl
@[simp] theorem frameArrives_plan (s : State) : (frameArrives s).plan = s.plan := rfl
@[simp] theorem frameArrives_clocks (s : State) : (frameArrives s).clocks = s.clocks := rfl
@[simp] theorem frameArrives_pending (s : State) : (frameArrives s).pending = s.pending := rfl

@[simp] theorem dropAtArrival_loader (s : State) : (dropAtArrival s).loader = s.loader := rfl
@[simp] theorem dropAtArrival_position (s : State) : (dropAtArrival s).position = s.position := rfl
@[simp] theorem dropAtArrival_level (s : State) : (dropAtArrival s).level = s.level := rfl
@[simp] theorem dropAtArrival_tide (s : State) : (dropAtArrival s).tide = s.tide := rfl
@[simp] theorem dropAtArrival_peers (s : State) : (dropAtArrival s).peers = s.peers := rfl
@[simp] theorem dropAtArrival_order (s : State) : (dropAtArrival s).order = s.order := rfl
@[simp] theorem dropAtArrival_target (s : State) : (dropAtArrival s).target = s.target := rfl
@[simp] theorem dropAtArrival_grant (s : State) : (dropAtArrival s).grant = s.grant := rfl
@[simp] theorem dropAtArrival_drive (s : State) : (dropAtArrival s).drive = s.drive := rfl
@[simp] theorem dropAtArrival_plan (s : State) : (dropAtArrival s).plan = s.plan := rfl
@[simp] theorem dropAtArrival_modeCtl (s : State) : (dropAtArrival s).modeCtl = s.modeCtl := rfl
@[simp] theorem dropAtArrival_clocks (s : State) : (dropAtArrival s).clocks = s.clocks := rfl
@[simp] theorem dropAtArrival_pending (s : State) : (dropAtArrival s).pending = s.pending := rfl

@[simp] theorem offerOrder_loader (img : Image) (kind : OrderKind) (f : OfferedOrder) (time : Option (Nat × Nat)) (s : State) : (offerOrder img kind f time s).loader = s.loader := by unfold offerOrder; (repeat' split) <;> simp
@[simp] theorem offerOrder_position (img : Image) (kind : OrderKind) (f : OfferedOrder) (time : Option (Nat × Nat)) (s : State) : (offerOrder img kind f time s).position = s.position := by unfold offerOrder; (repeat' split) <;> simp
@[simp] theorem offerOrder_level (img : Image) (kind : OrderKind) (f : OfferedOrder) (time : Option (Nat × Nat)) (s : State) : (offerOrder img kind f time s).level = s.level := by unfold offerOrder; (repeat' split) <;> simp
@[simp] theorem offerOrder_peers (img : Image) (kind : OrderKind) (f : OfferedOrder) (time : Option (Nat × Nat)) (s : State) : (offerOrder img kind f time s).peers = s.peers := by unfold offerOrder; (repeat' split) <;> simp
@[simp] theorem offerOrder_clocks (img : Image) (kind : OrderKind) (f : OfferedOrder) (time : Option (Nat × Nat)) (s : State) : (offerOrder img kind f time s).clocks = s.clocks := by unfold offerOrder; (repeat' split) <;> simp
@[simp] theorem offerOrder_pending (img : Image) (kind : OrderKind) (f : OfferedOrder) (time : Option (Nat × Nat)) (s : State) : (offerOrder img kind f time s).pending = s.pending := by unfold offerOrder; (repeat' split) <;> simp

@[simp] theorem takeOrderFrame_loader (source : Nat) (payload : List Byte) (s : State) : (takeOrderFrame source payload s).loader = s.loader := by unfold takeOrderFrame; (repeat' split) <;> simp
@[simp] theorem takeOrderFrame_position (source : Nat) (payload : List Byte) (s : State) : (takeOrderFrame source payload s).position = s.position := by unfold takeOrderFrame; (repeat' split) <;> simp
@[simp] theorem takeOrderFrame_level (source : Nat) (payload : List Byte) (s : State) : (takeOrderFrame source payload s).level = s.level := by unfold takeOrderFrame; (repeat' split) <;> simp
@[simp] theorem takeOrderFrame_peers (source : Nat) (payload : List Byte) (s : State) : (takeOrderFrame source payload s).peers = s.peers := by unfold takeOrderFrame; (repeat' split) <;> simp
@[simp] theorem takeOrderFrame_clocks (source : Nat) (payload : List Byte) (s : State) : (takeOrderFrame source payload s).clocks = s.clocks := by unfold takeOrderFrame; (repeat' split) <;> simp
@[simp] theorem takeOrderFrame_pending (source : Nat) (payload : List Byte) (s : State) : (takeOrderFrame source payload s).pending = s.pending := by unfold takeOrderFrame; (repeat' split) <;> simp

@[simp] theorem refreshRow_loader (source : Nat) (f : StateFrame) (s : State) : (refreshRow source f s).loader = s.loader := rfl
@[simp] theorem refreshRow_position (source : Nat) (f : StateFrame) (s : State) : (refreshRow source f s).position = s.position := rfl
@[simp] theorem refreshRow_level (source : Nat) (f : StateFrame) (s : State) : (refreshRow source f s).level = s.level := rfl
@[simp] theorem refreshRow_tide (source : Nat) (f : StateFrame) (s : State) : (refreshRow source f s).tide = s.tide := rfl
@[simp] theorem refreshRow_order (source : Nat) (f : StateFrame) (s : State) : (refreshRow source f s).order = s.order := rfl
@[simp] theorem refreshRow_target (source : Nat) (f : StateFrame) (s : State) : (refreshRow source f s).target = s.target := rfl
@[simp] theorem refreshRow_grant (source : Nat) (f : StateFrame) (s : State) : (refreshRow source f s).grant = s.grant := rfl
@[simp] theorem refreshRow_drive (source : Nat) (f : StateFrame) (s : State) : (refreshRow source f s).drive = s.drive := rfl
@[simp] theorem refreshRow_plan (source : Nat) (f : StateFrame) (s : State) : (refreshRow source f s).plan = s.plan := rfl
@[simp] theorem refreshRow_modeCtl (source : Nat) (f : StateFrame) (s : State) : (refreshRow source f s).modeCtl = s.modeCtl := rfl
@[simp] theorem refreshRow_line (source : Nat) (f : StateFrame) (s : State) : (refreshRow source f s).line = s.line := rfl
@[simp] theorem refreshRow_clocks (source : Nat) (f : StateFrame) (s : State) : (refreshRow source f s).clocks = s.clocks := rfl
@[simp] theorem refreshRow_pending (source : Nat) (f : StateFrame) (s : State) : (refreshRow source f s).pending = s.pending := rfl

@[simp] theorem takeEcho_loader (img : Image) (f : OfferedOrder) (s : State) : (takeEcho img f s).loader = s.loader := by unfold takeEcho; (repeat' split) <;> simp
@[simp] theorem takeEcho_position (img : Image) (f : OfferedOrder) (s : State) : (takeEcho img f s).position = s.position := by unfold takeEcho; (repeat' split) <;> simp
@[simp] theorem takeEcho_level (img : Image) (f : OfferedOrder) (s : State) : (takeEcho img f s).level = s.level := by unfold takeEcho; (repeat' split) <;> simp
@[simp] theorem takeEcho_peers (img : Image) (f : OfferedOrder) (s : State) : (takeEcho img f s).peers = s.peers := by unfold takeEcho; (repeat' split) <;> simp
@[simp] theorem takeEcho_clocks (img : Image) (f : OfferedOrder) (s : State) : (takeEcho img f s).clocks = s.clocks := by unfold takeEcho; (repeat' split) <;> simp
@[simp] theorem takeEcho_pending (img : Image) (f : OfferedOrder) (s : State) : (takeEcho img f s).pending = s.pending := by unfold takeEcho; (repeat' split) <;> simp

@[simp] theorem raiseDuplicate_loader (s : State) : (raiseDuplicate s).loader = s.loader := by simp [raiseDuplicate]
@[simp] theorem raiseDuplicate_position (s : State) : (raiseDuplicate s).position = s.position := by simp [raiseDuplicate]
@[simp] theorem raiseDuplicate_level (s : State) : (raiseDuplicate s).level = s.level := by simp [raiseDuplicate]
@[simp] theorem raiseDuplicate_line (s : State) : (raiseDuplicate s).line = s.line := by simp [raiseDuplicate]
@[simp] theorem raiseDuplicate_clocks (s : State) : (raiseDuplicate s).clocks = s.clocks := by simp [raiseDuplicate]
@[simp] theorem raiseDuplicate_pending (s : State) : (raiseDuplicate s).pending = s.pending := by simp [raiseDuplicate]

@[simp] theorem takeStateFrame_loader (source : Nat) (f : StateFrame) (s : State) : (takeStateFrame source f s).loader = s.loader := by unfold takeStateFrame; (repeat' split) <;> simp
@[simp] theorem takeStateFrame_position (source : Nat) (f : StateFrame) (s : State) : (takeStateFrame source f s).position = s.position := by unfold takeStateFrame; (repeat' split) <;> simp
@[simp] theorem takeStateFrame_level (source : Nat) (f : StateFrame) (s : State) : (takeStateFrame source f s).level = s.level := by unfold takeStateFrame; (repeat' split) <;> simp
@[simp] theorem takeStateFrame_clocks (source : Nat) (f : StateFrame) (s : State) : (takeStateFrame source f s).clocks = s.clocks := by unfold takeStateFrame; (repeat' split) <;> simp
@[simp] theorem takeStateFrame_pending (source : Nat) (f : StateFrame) (s : State) : (takeStateFrame source f s).pending = s.pending := by unfold takeStateFrame; (repeat' split) <;> simp

@[simp] theorem takeTideFrame_loader (source : Nat) (r : TideRecord) (s : State) : (takeTideFrame source r s).loader = s.loader := by unfold takeTideFrame; (repeat' split) <;> simp
@[simp] theorem takeTideFrame_position (source : Nat) (r : TideRecord) (s : State) : (takeTideFrame source r s).position = s.position := by unfold takeTideFrame; (repeat' split) <;> simp
@[simp] theorem takeTideFrame_level (source : Nat) (r : TideRecord) (s : State) : (takeTideFrame source r s).level = s.level := by unfold takeTideFrame; (repeat' split) <;> simp
@[simp] theorem takeTideFrame_peers (source : Nat) (r : TideRecord) (s : State) : (takeTideFrame source r s).peers = s.peers := by unfold takeTideFrame; (repeat' split) <;> simp
@[simp] theorem takeTideFrame_order (source : Nat) (r : TideRecord) (s : State) : (takeTideFrame source r s).order = s.order := by unfold takeTideFrame; (repeat' split) <;> simp
@[simp] theorem takeTideFrame_target (source : Nat) (r : TideRecord) (s : State) : (takeTideFrame source r s).target = s.target := by unfold takeTideFrame; (repeat' split) <;> simp
@[simp] theorem takeTideFrame_grant (source : Nat) (r : TideRecord) (s : State) : (takeTideFrame source r s).grant = s.grant := by unfold takeTideFrame; (repeat' split) <;> simp
@[simp] theorem takeTideFrame_drive (source : Nat) (r : TideRecord) (s : State) : (takeTideFrame source r s).drive = s.drive := by unfold takeTideFrame; (repeat' split) <;> simp
@[simp] theorem takeTideFrame_plan (source : Nat) (r : TideRecord) (s : State) : (takeTideFrame source r s).plan = s.plan := by unfold takeTideFrame; (repeat' split) <;> simp
@[simp] theorem takeTideFrame_modeCtl (source : Nat) (r : TideRecord) (s : State) : (takeTideFrame source r s).modeCtl = s.modeCtl := by unfold takeTideFrame; (repeat' split) <;> simp
@[simp] theorem takeTideFrame_clocks (source : Nat) (r : TideRecord) (s : State) : (takeTideFrame source r s).clocks = s.clocks := by unfold takeTideFrame; (repeat' split) <;> simp
@[simp] theorem takeTideFrame_pending (source : Nat) (r : TideRecord) (s : State) : (takeTideFrame source r s).pending = s.pending := by unfold takeTideFrame; (repeat' split) <;> simp

@[simp] theorem dropFrame_loader (what : Reception) (s : State) : (dropFrame what s).loader = s.loader := by unfold dropFrame; (repeat' split) <;> simp
@[simp] theorem dropFrame_position (what : Reception) (s : State) : (dropFrame what s).position = s.position := by unfold dropFrame; (repeat' split) <;> simp
@[simp] theorem dropFrame_level (what : Reception) (s : State) : (dropFrame what s).level = s.level := by unfold dropFrame; (repeat' split) <;> simp
@[simp] theorem dropFrame_tide (what : Reception) (s : State) : (dropFrame what s).tide = s.tide := by unfold dropFrame; (repeat' split) <;> simp
@[simp] theorem dropFrame_peers (what : Reception) (s : State) : (dropFrame what s).peers = s.peers := by unfold dropFrame; (repeat' split) <;> simp
@[simp] theorem dropFrame_order (what : Reception) (s : State) : (dropFrame what s).order = s.order := by unfold dropFrame; (repeat' split) <;> simp
@[simp] theorem dropFrame_target (what : Reception) (s : State) : (dropFrame what s).target = s.target := by unfold dropFrame; (repeat' split) <;> simp
@[simp] theorem dropFrame_grant (what : Reception) (s : State) : (dropFrame what s).grant = s.grant := by unfold dropFrame; (repeat' split) <;> simp
@[simp] theorem dropFrame_drive (what : Reception) (s : State) : (dropFrame what s).drive = s.drive := by unfold dropFrame; (repeat' split) <;> simp
@[simp] theorem dropFrame_plan (what : Reception) (s : State) : (dropFrame what s).plan = s.plan := by unfold dropFrame; (repeat' split) <;> simp
@[simp] theorem dropFrame_modeCtl (what : Reception) (s : State) : (dropFrame what s).modeCtl = s.modeCtl := by unfold dropFrame; (repeat' split) <;> simp
@[simp] theorem dropFrame_clocks (what : Reception) (s : State) : (dropFrame what s).clocks = s.clocks := by unfold dropFrame; (repeat' split) <;> simp
@[simp] theorem dropFrame_pending (what : Reception) (s : State) : (dropFrame what s).pending = s.pending := by unfold dropFrame; (repeat' split) <;> simp

@[simp] theorem answer_loader (source tag code : Nat) (result : CommandResult) (s : State) : (answer source tag code result s).loader = s.loader := rfl
@[simp] theorem answer_position (source tag code : Nat) (result : CommandResult) (s : State) : (answer source tag code result s).position = s.position := rfl
@[simp] theorem answer_level (source tag code : Nat) (result : CommandResult) (s : State) : (answer source tag code result s).level = s.level := rfl
@[simp] theorem answer_tide (source tag code : Nat) (result : CommandResult) (s : State) : (answer source tag code result s).tide = s.tide := rfl
@[simp] theorem answer_peers (source tag code : Nat) (result : CommandResult) (s : State) : (answer source tag code result s).peers = s.peers := rfl
@[simp] theorem answer_target (source tag code : Nat) (result : CommandResult) (s : State) : (answer source tag code result s).target = s.target := rfl
@[simp] theorem answer_grant (source tag code : Nat) (result : CommandResult) (s : State) : (answer source tag code result s).grant = s.grant := rfl
@[simp] theorem answer_drive (source tag code : Nat) (result : CommandResult) (s : State) : (answer source tag code result s).drive = s.drive := rfl
@[simp] theorem answer_plan (source tag code : Nat) (result : CommandResult) (s : State) : (answer source tag code result s).plan = s.plan := rfl
@[simp] theorem answer_modeCtl (source tag code : Nat) (result : CommandResult) (s : State) : (answer source tag code result s).modeCtl = s.modeCtl := rfl
@[simp] theorem answer_clocks (source tag code : Nat) (result : CommandResult) (s : State) : (answer source tag code result s).clocks = s.clocks := rfl
@[simp] theorem answer_pending (source tag code : Nat) (result : CommandResult) (s : State) : (answer source tag code result s).pending = s.pending := rfl

@[simp] theorem abandonSave_loader (s : State) : (abandonSave s).loader = s.loader := by unfold abandonSave; split <;> simp
@[simp] theorem abandonSave_position (s : State) : (abandonSave s).position = s.position := by unfold abandonSave; split <;> simp
@[simp] theorem abandonSave_level (s : State) : (abandonSave s).level = s.level := by unfold abandonSave; split <;> simp
@[simp] theorem abandonSave_tide (s : State) : (abandonSave s).tide = s.tide := by unfold abandonSave; split <;> simp
@[simp] theorem abandonSave_peers (s : State) : (abandonSave s).peers = s.peers := by unfold abandonSave; split <;> simp
@[simp] theorem abandonSave_order (s : State) : (abandonSave s).order = s.order := by unfold abandonSave; split <;> simp
@[simp] theorem abandonSave_target (s : State) : (abandonSave s).target = s.target := by unfold abandonSave; split <;> simp
@[simp] theorem abandonSave_grant (s : State) : (abandonSave s).grant = s.grant := by unfold abandonSave; split <;> simp
@[simp] theorem abandonSave_drive (s : State) : (abandonSave s).drive = s.drive := by unfold abandonSave; split <;> simp
@[simp] theorem abandonSave_plan (s : State) : (abandonSave s).plan = s.plan := by unfold abandonSave; split <;> simp
@[simp] theorem abandonSave_line (s : State) : (abandonSave s).line = s.line := by unfold abandonSave; split <;> simp
@[simp] theorem abandonSave_clocks (s : State) : (abandonSave s).clocks = s.clocks := by unfold abandonSave; split <;> simp
@[simp] theorem abandonSave_pending (s : State) : (abandonSave s).pending = s.pending := by unfold abandonSave; split <;> simp

@[simp] theorem clearDeferred_loader (s : State) : (clearDeferred s).loader = s.loader := rfl
@[simp] theorem clearDeferred_position (s : State) : (clearDeferred s).position = s.position := rfl
@[simp] theorem clearDeferred_level (s : State) : (clearDeferred s).level = s.level := rfl
@[simp] theorem clearDeferred_tide (s : State) : (clearDeferred s).tide = s.tide := rfl
@[simp] theorem clearDeferred_peers (s : State) : (clearDeferred s).peers = s.peers := rfl
@[simp] theorem clearDeferred_target (s : State) : (clearDeferred s).target = s.target := rfl
@[simp] theorem clearDeferred_grant (s : State) : (clearDeferred s).grant = s.grant := rfl
@[simp] theorem clearDeferred_drive (s : State) : (clearDeferred s).drive = s.drive := rfl
@[simp] theorem clearDeferred_plan (s : State) : (clearDeferred s).plan = s.plan := rfl
@[simp] theorem clearDeferred_modeCtl (s : State) : (clearDeferred s).modeCtl = s.modeCtl := rfl
@[simp] theorem clearDeferred_line (s : State) : (clearDeferred s).line = s.line := rfl
@[simp] theorem clearDeferred_clocks (s : State) : (clearDeferred s).clocks = s.clocks := rfl
@[simp] theorem clearDeferred_pending (s : State) : (clearDeferred s).pending = s.pending := rfl

@[simp] theorem leaveFault_loader (s : State) : (leaveFault s).loader = s.loader := by unfold leaveFault; split <;> simp
@[simp] theorem leaveFault_position (s : State) : (leaveFault s).position = s.position := by unfold leaveFault; split <;> simp
@[simp] theorem leaveFault_level (s : State) : (leaveFault s).level = s.level := by unfold leaveFault; split <;> simp
@[simp] theorem leaveFault_peers (s : State) : (leaveFault s).peers = s.peers := by unfold leaveFault; split <;> simp
@[simp] theorem leaveFault_line (s : State) : (leaveFault s).line = s.line := by unfold leaveFault; split <;> simp
@[simp] theorem leaveFault_clocks (s : State) : (leaveFault s).clocks = s.clocks := by unfold leaveFault; split <;> simp
@[simp] theorem leaveFault_pending (s : State) : (leaveFault s).pending = s.pending := by unfold leaveFault; split <;> simp

@[simp] theorem rejectImage_position (s : State) : (rejectImage s).position = s.position := by simp [rejectImage]
@[simp] theorem rejectImage_level (s : State) : (rejectImage s).level = s.level := by simp [rejectImage]
@[simp] theorem rejectImage_peers (s : State) : (rejectImage s).peers = s.peers := by simp [rejectImage]
@[simp] theorem rejectImage_line (s : State) : (rejectImage s).line = s.line := by simp [rejectImage]
@[simp] theorem rejectImage_clocks (s : State) : (rejectImage s).clocks = s.clocks := by simp [rejectImage]
@[simp] theorem rejectImage_pending (s : State) : (rejectImage s).pending = s.pending := by simp [rejectImage]

@[simp] theorem failAttempt_position (s : State) : (failAttempt s).position = s.position := by
  unfold failAttempt; dsimp only; (repeat' split) <;> simp
@[simp] theorem failAttempt_level (s : State) : (failAttempt s).level = s.level := by
  unfold failAttempt; dsimp only; (repeat' split) <;> simp
@[simp] theorem failAttempt_peers (s : State) : (failAttempt s).peers = s.peers := by
  unfold failAttempt; dsimp only; (repeat' split) <;> simp
@[simp] theorem failAttempt_line (s : State) : (failAttempt s).line = s.line := by
  unfold failAttempt; dsimp only; (repeat' split) <;> simp
@[simp] theorem failAttempt_clocks (s : State) : (failAttempt s).clocks = s.clocks := by
  unfold failAttempt; dsimp only; (repeat' split) <;> simp
@[simp] theorem failAttempt_pending (s : State) : (failAttempt s).pending = s.pending := by
  unfold failAttempt; dsimp only; (repeat' split) <;> simp

@[simp] theorem holdImage_position (img : Image) (s : State) : (holdImage img s).position = s.position := rfl
@[simp] theorem holdImage_level (img : Image) (s : State) : (holdImage img s).level = s.level := rfl
@[simp] theorem holdImage_tide (img : Image) (s : State) : (holdImage img s).tide = s.tide := rfl
@[simp] theorem holdImage_peers (img : Image) (s : State) : (holdImage img s).peers = s.peers := rfl
@[simp] theorem holdImage_order (img : Image) (s : State) : (holdImage img s).order = s.order := rfl
@[simp] theorem holdImage_target (img : Image) (s : State) : (holdImage img s).target = s.target := rfl
@[simp] theorem holdImage_grant (img : Image) (s : State) : (holdImage img s).grant = s.grant := rfl
@[simp] theorem holdImage_plan (img : Image) (s : State) : (holdImage img s).plan = s.plan := rfl
@[simp] theorem holdImage_modeCtl (img : Image) (s : State) : (holdImage img s).modeCtl = s.modeCtl := rfl
@[simp] theorem holdImage_pending (img : Image) (s : State) : (holdImage img s).pending = s.pending := rfl

@[simp] theorem reachPeriod_level (s : State) : (reachPeriod s).level = s.level := by unfold reachPeriod; (repeat' split) <;> simp
@[simp] theorem reachPeriod_tide (s : State) : (reachPeriod s).tide = s.tide := by unfold reachPeriod; (repeat' split) <;> simp
@[simp] theorem reachPeriod_target (s : State) : (reachPeriod s).target = s.target := by unfold reachPeriod; (repeat' split) <;> simp
@[simp] theorem reachPeriod_plan (s : State) : (reachPeriod s).plan = s.plan := by unfold reachPeriod; (repeat' split) <;> simp
@[simp] theorem reachPeriod_pending (s : State) : (reachPeriod s).pending = s.pending := by unfold reachPeriod; (repeat' split) <;> simp

@[simp] theorem startSending_loader (s : State) : (startSending s).loader = s.loader := by unfold startSending; (repeat' split) <;> simp
@[simp] theorem startSending_position (s : State) : (startSending s).position = s.position := by unfold startSending; (repeat' split) <;> simp
@[simp] theorem startSending_level (s : State) : (startSending s).level = s.level := by unfold startSending; (repeat' split) <;> simp
@[simp] theorem startSending_tide (s : State) : (startSending s).tide = s.tide := by unfold startSending; (repeat' split) <;> simp
@[simp] theorem startSending_peers (s : State) : (startSending s).peers = s.peers := by unfold startSending; (repeat' split) <;> simp
@[simp] theorem startSending_order (s : State) : (startSending s).order = s.order := by unfold startSending; (repeat' split) <;> simp
@[simp] theorem startSending_target (s : State) : (startSending s).target = s.target := by unfold startSending; (repeat' split) <;> simp
@[simp] theorem startSending_grant (s : State) : (startSending s).grant = s.grant := by unfold startSending; (repeat' split) <;> simp
@[simp] theorem startSending_drive (s : State) : (startSending s).drive = s.drive := by unfold startSending; (repeat' split) <;> simp
@[simp] theorem startSending_plan (s : State) : (startSending s).plan = s.plan := by unfold startSending; (repeat' split) <;> simp
@[simp] theorem startSending_modeCtl (s : State) : (startSending s).modeCtl = s.modeCtl := by unfold startSending; (repeat' split) <;> simp
@[simp] theorem startSending_clocks (s : State) : (startSending s).clocks = s.clocks := by unfold startSending; (repeat' split) <;> simp
@[simp] theorem startSending_pending (s : State) : (startSending s).pending = s.pending := by unfold startSending; (repeat' split) <;> simp

@[simp] theorem stopSending_loader (dominant : Bool) (s : State) : (stopSending dominant s).loader = s.loader := rfl
@[simp] theorem stopSending_position (dominant : Bool) (s : State) : (stopSending dominant s).position = s.position := rfl
@[simp] theorem stopSending_level (dominant : Bool) (s : State) : (stopSending dominant s).level = s.level := rfl
@[simp] theorem stopSending_tide (dominant : Bool) (s : State) : (stopSending dominant s).tide = s.tide := rfl
@[simp] theorem stopSending_peers (dominant : Bool) (s : State) : (stopSending dominant s).peers = s.peers := rfl
@[simp] theorem stopSending_order (dominant : Bool) (s : State) : (stopSending dominant s).order = s.order := rfl
@[simp] theorem stopSending_target (dominant : Bool) (s : State) : (stopSending dominant s).target = s.target := rfl
@[simp] theorem stopSending_grant (dominant : Bool) (s : State) : (stopSending dominant s).grant = s.grant := rfl
@[simp] theorem stopSending_drive (dominant : Bool) (s : State) : (stopSending dominant s).drive = s.drive := rfl
@[simp] theorem stopSending_plan (dominant : Bool) (s : State) : (stopSending dominant s).plan = s.plan := rfl
@[simp] theorem stopSending_modeCtl (dominant : Bool) (s : State) : (stopSending dominant s).modeCtl = s.modeCtl := rfl
@[simp] theorem stopSending_clocks (dominant : Bool) (s : State) : (stopSending dominant s).clocks = s.clocks := rfl
@[simp] theorem stopSending_pending (dominant : Bool) (s : State) : (stopSending dominant s).pending = s.pending := rfl

@[simp] theorem completeFrame_loader (s : State) : (completeFrame s).loader = s.loader := by unfold completeFrame; split <;> simp
@[simp] theorem completeFrame_position (s : State) : (completeFrame s).position = s.position := by unfold completeFrame; split <;> simp
@[simp] theorem completeFrame_level (s : State) : (completeFrame s).level = s.level := by unfold completeFrame; split <;> simp
@[simp] theorem completeFrame_tide (s : State) : (completeFrame s).tide = s.tide := by unfold completeFrame; split <;> simp
@[simp] theorem completeFrame_peers (s : State) : (completeFrame s).peers = s.peers := by unfold completeFrame; split <;> simp
@[simp] theorem completeFrame_order (s : State) : (completeFrame s).order = s.order := by unfold completeFrame; split <;> simp
@[simp] theorem completeFrame_target (s : State) : (completeFrame s).target = s.target := by unfold completeFrame; split <;> simp
@[simp] theorem completeFrame_grant (s : State) : (completeFrame s).grant = s.grant := by unfold completeFrame; split <;> simp
@[simp] theorem completeFrame_drive (s : State) : (completeFrame s).drive = s.drive := by unfold completeFrame; split <;> simp
@[simp] theorem completeFrame_plan (s : State) : (completeFrame s).plan = s.plan := by unfold completeFrame; split <;> simp
@[simp] theorem completeFrame_clocks (s : State) : (completeFrame s).clocks = s.clocks := by unfold completeFrame; split <;> simp
@[simp] theorem completeFrame_pending (s : State) : (completeFrame s).pending = s.pending := by unfold completeFrame; split <;> simp

@[simp] theorem becomeIdle_loader (s : State) : (becomeIdle s).loader = s.loader := by unfold becomeIdle; split <;> simp
@[simp] theorem becomeIdle_position (s : State) : (becomeIdle s).position = s.position := by unfold becomeIdle; split <;> simp
@[simp] theorem becomeIdle_level (s : State) : (becomeIdle s).level = s.level := by unfold becomeIdle; split <;> simp
@[simp] theorem becomeIdle_tide (s : State) : (becomeIdle s).tide = s.tide := by unfold becomeIdle; split <;> simp
@[simp] theorem becomeIdle_peers (s : State) : (becomeIdle s).peers = s.peers := by unfold becomeIdle; split <;> simp
@[simp] theorem becomeIdle_order (s : State) : (becomeIdle s).order = s.order := by unfold becomeIdle; split <;> simp
@[simp] theorem becomeIdle_target (s : State) : (becomeIdle s).target = s.target := by unfold becomeIdle; split <;> simp
@[simp] theorem becomeIdle_grant (s : State) : (becomeIdle s).grant = s.grant := by unfold becomeIdle; split <;> simp
@[simp] theorem becomeIdle_drive (s : State) : (becomeIdle s).drive = s.drive := by unfold becomeIdle; split <;> simp
@[simp] theorem becomeIdle_plan (s : State) : (becomeIdle s).plan = s.plan := by unfold becomeIdle; split <;> simp
@[simp] theorem becomeIdle_modeCtl (s : State) : (becomeIdle s).modeCtl = s.modeCtl := by unfold becomeIdle; split <;> simp
@[simp] theorem becomeIdle_clocks (s : State) : (becomeIdle s).clocks = s.clocks := by unfold becomeIdle; split <;> simp
@[simp] theorem becomeIdle_pending (s : State) : (becomeIdle s).pending = s.pending := by unfold becomeIdle; split <;> simp
end Sys2Proof.Machine
end

