-- ==== Sys2Proof/Laws/Events.lean ====
section
/-! SUPPORT. What every event shares (the report at its end), that every event completes, and how the step and the queue relate to `exec`. -/

namespace Sys2Proof.Machine

/-! ### The end of an event -/

@[simp] theorem markChanges_loader (s t : State) : (markChanges s t).loader = t.loader := rfl
@[simp] theorem markChanges_position (s t : State) : (markChanges s t).position = t.position := rfl
@[simp] theorem markChanges_level (s t : State) : (markChanges s t).level = t.level := rfl
@[simp] theorem markChanges_tide (s t : State) : (markChanges s t).tide = t.tide := rfl
@[simp] theorem markChanges_peers (s t : State) : (markChanges s t).peers = t.peers := rfl
@[simp] theorem markChanges_order (s t : State) : (markChanges s t).order = t.order := rfl
@[simp] theorem markChanges_target (s t : State) : (markChanges s t).target = t.target := rfl
@[simp] theorem markChanges_grant (s t : State) : (markChanges s t).grant = t.grant := rfl
@[simp] theorem markChanges_drive (s t : State) : (markChanges s t).drive = t.drive := rfl
@[simp] theorem markChanges_plan (s t : State) : (markChanges s t).plan = t.plan := rfl
@[simp] theorem markChanges_modeCtl (s t : State) : (markChanges s t).modeCtl = t.modeCtl := rfl
@[simp] theorem markChanges_clocks (s t : State) : (markChanges s t).clocks = t.clocks := rfl
@[simp] theorem markChanges_pending (s t : State) : (markChanges s t).pending = t.pending := rfl

@[simp] theorem concludeEvent_loader (s t : State) : (concludeEvent s t).loader = t.loader := by simp [concludeEvent]
@[simp] theorem concludeEvent_position (s t : State) : (concludeEvent s t).position = t.position := by simp [concludeEvent]
@[simp] theorem concludeEvent_level (s t : State) : (concludeEvent s t).level = t.level := by simp [concludeEvent]
@[simp] theorem concludeEvent_tide (s t : State) : (concludeEvent s t).tide = t.tide := by simp [concludeEvent]
@[simp] theorem concludeEvent_peers (s t : State) : (concludeEvent s t).peers = t.peers := by simp [concludeEvent]
@[simp] theorem concludeEvent_order (s t : State) : (concludeEvent s t).order = t.order := by simp [concludeEvent]
@[simp] theorem concludeEvent_target (s t : State) : (concludeEvent s t).target = t.target := by simp [concludeEvent]
@[simp] theorem concludeEvent_grant (s t : State) : (concludeEvent s t).grant = t.grant := by simp [concludeEvent]
@[simp] theorem concludeEvent_drive (s t : State) : (concludeEvent s t).drive = t.drive := by simp [concludeEvent]
@[simp] theorem concludeEvent_plan (s t : State) : (concludeEvent s t).plan = t.plan := by simp [concludeEvent]
@[simp] theorem concludeEvent_modeCtl (s t : State) : (concludeEvent s t).modeCtl = t.modeCtl := by simp [concludeEvent]
@[simp] theorem concludeEvent_clocks (s t : State) : (concludeEvent s t).clocks = t.clocks := by simp [concludeEvent]
@[simp] theorem concludeEvent_pending (s t : State) : (concludeEvent s t).pending = t.pending := by simp [concludeEvent]

/-- What the end of an event does to the line: a report, or nothing but the mark (R43, R44, R172, R173). -/
theorem concludeEvent_line (s t : State) :
    (concludeEvent s t).line =
      if reportDue (markChanges s t) then (placeState (markChanges s t)).line
      else { t.line with mark := t.line.mark || (lineWorks t && reportedChange s t) } := by
  unfold concludeEvent serveReports
  split <;> simp_all [markChanges]

/-- A report takes nothing of the line but the STATE slot, the mark, the due report and the TX-blocked timer. -/
theorem placeState_line (s : State) :
    (placeState s).line =
      { s.line with
        stateSlot := some (buildState s)
        mark := if gapOver s then false else s.line.mark
        periodicDue := false
        txTimer := if s.line.stateSlot.isNone then some 0 else s.line.txTimer
        txExpired := if s.line.stateSlot.isNone then false else s.line.txExpired } := rfl

/-- The end of an event leaves the rest of the line alone. -/
theorem concludeEvent_line_only (s t : State) :
    (concludeEvent s t).line =
      { t.line with
        stateSlot := (concludeEvent s t).line.stateSlot
        mark := (concludeEvent s t).line.mark
        periodicDue := (concludeEvent s t).line.periodicDue
        txTimer := (concludeEvent s t).line.txTimer
        txExpired := (concludeEvent s t).line.txExpired } := by
  rw [concludeEvent_line]
  split
  · rw [placeState_line]; rfl
  · rfl

/-- An event completes, with its effects and what every event shares. -/
@[simp] theorem event_eq (f : State → State) (s : State) : event f s = .next (concludeEvent s (f s)) := rfl

/-! ### The step -/

/-- With an event in front the step is that event on the queue's rest. -/
theorem step_cons (i : Instr) (rest : List Instr) (s : State) :
    step (s.withPending (i :: rest)) = exec i ((s.withPending (i :: rest)).withPending rest) := rfl

/-- On an empty queue one millisecond passes. -/
theorem step_nil (s : State) (h : s.pending = []) : step s = .next (elapse 1 s) := by
  unfold step; rw [h]

end Sys2Proof.Machine
end

