-- ==== Sys2Proof/Laws/Faults.lean ====
section
/-! SUPPORT. The fault sets, and once for each shared operation on them everything it can do: conditions that become active or inactive,
and the raising of a kind (R159 to R162). -/

namespace Sys2Proof.Machine

open Sys2Proof.Safety

/-! ### Sets of kinds -/

/-- Kinds are told apart by their bits. -/
theorem faultBit_inj {j k : FaultKind} : faultBit j = faultBit k ↔ j = k := by
  cases j <;> cases k <;> simp [faultBit]

/-- Every kind has a bit of the set. -/
theorem faultBit_lt (k : FaultKind) : faultBit k < 16 := by cases k <;> decide

@[simp] theorem hasFault_onlyFault (j k : FaultKind) : hasFault j (onlyFault k) = decide (j = k) := by
  cases j <;> cases k <;> decide

@[simp] theorem hasFault_addFault (j k : FaultKind) (f : FaultSet) : hasFault j (addFault k f) = (hasFault j f || decide (j = k)) := by
  simp only [hasFault, addFault, BitVec.getLsbD_or]
  exact congrArg _ (hasFault_onlyFault j k)

@[simp] theorem hasFault_dropFault (j k : FaultKind) (f : FaultSet) :
    hasFault j (dropFault k f) = (hasFault j f && !decide (j = k)) := by
  have h := hasFault_onlyFault j k
  simp only [hasFault] at h
  simp only [hasFault, dropFault, BitVec.getLsbD_and, BitVec.getLsbD_not, h, faultBit_lt, decide_true, Bool.true_and]

@[simp] theorem hasFault_zero (k : FaultKind) : hasFault k 0#16 = false := by cases k <;> rfl

/-- A kind that stands in a set enters it without a change. -/
theorem addFault_of_mem {k : FaultKind} {f : FaultSet} (h : hasFault k f = true) : addFault k f = f := by
  apply BitVec.eq_of_getLsbD_eq
  intro i hi
  simp only [addFault, onlyFault, BitVec.getLsbD_or, BitVec.getLsbD_twoPow]
  by_cases hk : faultBit k = i
  · subst hk; simp only [hasFault] at h; simp [h]
  · simp [hk]

/-- A kind that does not stand in a set leaves it without a change. -/
theorem dropFault_of_not_mem {k : FaultKind} {f : FaultSet} (h : hasFault k f = false) : dropFault k f = f := by
  apply BitVec.eq_of_getLsbD_eq
  intro i hi
  simp only [dropFault, onlyFault, BitVec.getLsbD_and, BitVec.getLsbD_not, BitVec.getLsbD_twoPow, hi, decide_true, Bool.true_and]
  by_cases hk : faultBit k = i
  · subst hk; simp only [hasFault] at h; simp [h]
  · simp [hk]

/-- A set that lies in another has the kinds of the other alone. -/
theorem hasFault_of_subset {k : FaultKind} {f g : FaultSet} (h : f &&& g = f) (hk : hasFault k f = true) : hasFault k g = true := by
  rw [← h] at hk
  simp only [hasFault, BitVec.getLsbD_and, Bool.and_eq_true] at *
  exact hk.2

/-- No stop-class kind stands in a set exactly where each of the ten is missing. -/
theorem hasStopClass_eq_false {f : FaultSet} : hasStopClass f = false ↔ ∀ k, isStopClass k = true → hasFault k f = false := by
  have hs : ∀ i, (f &&& stopClassSet).getLsbD i = (f.getLsbD i && decide (i ≤ 9)) := by
    intro i
    rw [BitVec.getLsbD_and]
    by_cases hi : i < 16
    · have : stopClassSet.getLsbD i = decide (i ≤ 9) := by
        revert i; decide
      rw [this]
    · simp [BitVec.getLsbD_of_ge f i (by omega)]
  constructor
  · intro h k hk
    have hz : f &&& stopClassSet = 0 := by simpa [hasStopClass] using h
    have := hs (faultBit k)
    rw [hz] at this
    simp only [isStopClass, decide_eq_true_eq] at hk
    simp [hk] at this
    exact this
  · intro h
    have hz : f &&& stopClassSet = 0 := by
      apply BitVec.eq_of_getLsbD_eq
      intro i hi
      rw [hs]
      by_cases h9 : i ≤ 9
      · have : ∃ k, faultBit k = i ∧ isStopClass k = true := by
          interval_cases i
          exacts [⟨.config, rfl, rfl⟩, ⟨.duplicate, rfl, rfl⟩, ⟨.encL, rfl, rfl⟩, ⟨.encR, rfl, rfl⟩, ⟨.travel, rfl, rfl⟩,
            ⟨.skew, rfl, rfl⟩, ⟨.valveL, rfl, rfl⟩, ⟨.valveR, rfl, rfl⟩, ⟨.stall, rfl, rfl⟩, ⟨.pump, rfl, rfl⟩]
        obtain ⟨k, rfl, hk⟩ := this
        have := h k hk
        simp only [hasFault] at this
        simp [this]
      · simp [h9]
    simp [hasStopClass, hz]

/-! ### Conditions that change -/

/-- A condition that becomes inactive: its kind leaves the active set, and nothing else changes (R160). -/
theorem clearKinds_one (k : FaultKind) (s : State) :
    clearKinds [k] s = s.withModeCtl { s.modeCtl with active := dropFault k s.modeCtl.active } := rfl

/-- A condition that is active already becomes active without a change. -/
theorem latchKinds_of_active {k : FaultKind} {s : State} (h : condition k s = true) : latchKinds [k] s = s := by
  have hb : becomingActive [k] s = [] := by simp [becomingActive, condition] at *; exact h
  have he : enteringLatched [k] s = [] := by simp [enteringLatched, hb]
  simp only [latchKinds, hb, he, List.foldl_nil, List.head?_nil, ite_self]
  rfl

/-- A condition of one kind that becomes active enters both sets, and the first-fault record where nothing was latched (R160 to R162). -/
theorem latchKinds_of_inactive {k : FaultKind} {s : State} (h : condition k s = false) :
    latchKinds [k] s = s.withModeCtl (raisedModes k s) := by
  have hb : becomingActive [k] s = [k] := by simp [becomingActive, condition] at *; exact h
  by_cases hz : s.modeCtl.latched = 0
  · have he : enteringLatched [k] s = [k] := by simp [enteringLatched, hb, hz]
    simp only [latchKinds, hb, he, List.foldl_cons, List.foldl_nil, List.head?_cons, raisedModes]
  · simp only [latchKinds, hb, List.foldl_cons, List.foldl_nil, raisedModes, if_neg hz]

/-- A kind that is not stop-class does not change the mode (R161). -/
theorem raise_of_not_stop {k : FaultKind} {s : State} (h : isStopClass k = false) : raise [k] s = latchKinds [k] s := by
  have : (enteringLatched [k] s).any isStopClass = false := by
    rw [List.any_eq_false]
    intro x hx
    have : x = k := by
      simp only [enteringLatched, becomingActive, List.mem_filter, List.mem_singleton] at hx
      exact hx.1.1
    simp [this, h]
  simp [raise, this]

/-- Raising a condition that is active already changes nothing. -/
theorem raise_of_active {k : FaultKind} {s : State} (h : condition k s = true) : raise [k] s = s := by
  have hb : becomingActive [k] s = [] := by simp [becomingActive, condition] at *; exact h
  simp [raise, enteringLatched, hb, latchKinds_of_active h]

/-- A stop-class kind that is neither active nor latched takes a station that can fault to FAULT (R161). -/
theorem raise_of_stop {k : FaultKind} {s : State} (hk : isStopClass k = true) (hm : canFault s.modeCtl.mode = true)
    (ha : condition k s = false) (hl : hasFault k s.modeCtl.latched = false) :
    raise [k] s = enterMode .fault (s.withModeCtl (raisedModes k s)) := by
  have hb : becomingActive [k] s = [k] := by simp [becomingActive, condition] at *; exact ha
  have he : enteringLatched [k] s = [k] := by simp [enteringLatched, hb, hl]
  have := latchKinds_of_inactive ha
  simp [raise, hm, he, hk, this]

/-- No kinds are raised: nothing changes. -/
@[simp] theorem raise_nil (s : State) : raise [] s = s := by
  simp only [raise, enteringLatched, becomingActive, List.filter_nil, List.any_nil, Bool.and_false, Bool.false_eq_true, if_false, latchKinds,
    List.foldl_nil, List.head?_nil, ite_self]
  rfl

end Sys2Proof.Machine
end

