-- ==== Sys2Proof/Laws/Ops.lean ====
section
/-! SUPPORT. Once for each shared operation, everything it can do: what the blocks read, time, the claim with its outputs, the arrival of a
frame, the treatment of a command, and the report at the end of an event. -/

namespace Sys2Proof.Machine

open Sys2Proof.Safety

/-! ### What the readers depend on -/

theorem acceptedImage_congr {s t : State} (h : t.loader = s.loader) : acceptedImage t = acceptedImage s := by
  simp only [acceptedImage, h]

theorem isAccepted_congr {s t : State} (h : t.loader = s.loader) : isAccepted t = isAccepted s := by
  simp only [isAccepted, acceptedImage_congr h]

theorem lineWorks_congr {s t : State} (h : t.loader = s.loader) : lineWorks t = lineWorks s := by
  simp only [lineWorks, h]

theorem reportPeriod_congr {s t : State} (h : t.loader = s.loader) : reportPeriod t = reportPeriod s := by
  simp only [reportPeriod, acceptedImage_congr h]

theorem nullCode_congr {s t : State} (d : Side) (h : t.loader = s.loader) : nullCode d t = nullCode d s := by
  simp only [nullCode, acceptedImage_congr h]

theorem condition_congr {s t : State} (k : FaultKind) (h : t.modeCtl.active = s.modeCtl.active) : condition k t = condition k s := by
  simp only [condition, h]

theorem orderApplies_congr {s t : State} (ho : t.order.adopted = s.order.adopted) (hl : t.loader = s.loader) :
    orderApplies t = orderApplies s := by
  simp only [orderApplies, ho, hl]

theorem haltInForce_congr {s t : State} (ho : t.order.adopted = s.order.adopted) (hl : t.loader = s.loader) :
    haltInForce t = haltInForce s := by
  simp only [haltInForce, ho, hl]

theorem keyMode_congr {s t : State} (h : t.modeCtl = s.modeCtl) : keyMode t = keyMode s := by simp only [keyMode, h]

theorem stormDemand_congr {s t : State} (h : t.modeCtl = s.modeCtl) : stormDemand t = stormDemand s := by
  simp only [stormDemand, h]

theorem contentAt_congr {s t : State} (n : Nat) (h : t.peers.rows = s.peers.rows) : contentAt n t = contentAt n s := by
  simp only [contentAt, h]

theorem peerRows_congr {s t : State} (h : t.peers.rows = s.peers.rows) : peerRows t = peerRows s := by
  simp only [peerRows, contentAt_congr _ h]

/-- A filled row stands in the table with its age. -/
theorem contentAt_eq_some {s : State} {n : Nat} {c : PeerRow} :
    contentAt n s = some c ↔ ∃ age, s.peers.rows[n]? = some { age := age, content := some c } := by
  unfold contentAt
  rw [List.getD_eq_getElem?_getD]
  cases h : s.peers.rows[n]? with
  | none => simp [TableRow.initial]
  | some r => cases r; simp

/-! ### The rows of the Peer Table (R35, R37) -/

/-- An EMPTY row does not age. -/
@[simp] theorem ageRow_empty (age : Nat) : ageRow { age := age, content := none } = { age := age, content := none } := rfl

/-- A filled row ages by one, and its freshness follows. -/
@[simp] theorem ageRow_filled (age : Nat) (c : PeerRow) :
    ageRow { age := age, content := some c } =
      { age := countTo 65535 age
        content := some { c with freshness := freshnessOf (countTo 65535 age) c.period } } := rfl

/-- A refresh fills the one row, from the frame, at age 0, and leaves the others. -/
theorem contentAt_refreshRow (n source : Nat) (f : StateFrame) (s : State) (h : source < s.peers.rows.length) :
    contentAt n (refreshRow source f s) = if n = source then some (rowOf f) else contentAt n s := by
  unfold contentAt refreshRow
  simp only [State.withPeers_peers, List.getD_eq_getElem?_getD, List.getElem?_set]
  split
  · simp_all
  · rename_i hn
    rw [if_neg (fun e => hn e.symm)]

/-- A station that receives has its line working, nothing of its own on the line, and waits for no idle. -/
theorem receiving_iff {s : State} :
    receiving s = true ↔ lineWorks s = true ∧ s.line.sending = none ∧ s.line.awaitIdle = false := by
  simp [receiving, Option.isNone_iff_eq_none, and_assoc]

/-- An accepted image is one way of holding an image that has been read. -/
theorem lineWorks_of_serving {s : State} {img : Image} (h : Serving s img) : lineWorks s = true := by
  obtain ⟨hi, hr⟩ := h
  unfold acceptedImage at hi
  unfold lineWorks
  split at hi <;> simp_all

/-- An event that acts while an image is held, on a station that holds one. -/
theorem whileAccepted_of_some {s : State} {img : Image} (f : Image → State → State) (h : acceptedImage s = some img) :
    whileAccepted f s = f img s := by
  simp only [whileAccepted, h]

/-- An event that acts while an image is held does nothing where none is. -/
theorem whileAccepted_of_none {s : State} (f : Image → State → State) (h : acceptedImage s = none) : whileAccepted f s = s := by
  simp only [whileAccepted, h]

/-- An event of the Line Interface, on a station whose line works and on any other. -/
theorem whileLineWorks_of_true {s : State} (f : State → State) (h : lineWorks s = true) : whileLineWorks f s = f s := by
  simp only [whileLineWorks, h, if_true]

theorem whileLineWorks_of_false {s : State} (f : State → State) (h : lineWorks s = false) : whileLineWorks f s = s := by
  simp [whileLineWorks, h]

/-! ### Time -/

/-- In a reset no time passes. -/
theorem elapse_of_reset {dt : Nat} {s : State} (h : s.loader.inReset = true) : elapse dt s = s := by simp [elapse, h]

theorem elapse_inReset (dt : Nat) (s : State) : (elapse dt s).loader.inReset = s.loader.inReset := by
  unfold elapse; split <;> rfl

theorem elapse_image (dt : Nat) (s : State) : (elapse dt s).loader.image = s.loader.image := by
  unfold elapse; split <;> rfl

theorem elapse_strap (dt : Nat) (s : State) : (elapse dt s).loader.strap = s.loader.strap := by
  unfold elapse; split <;> rfl

theorem acceptedImage_elapse (dt : Nat) (s : State) : acceptedImage (elapse dt s) = acceptedImage s := by
  simp only [acceptedImage, elapse_image]

theorem lineWorks_elapse (dt : Nat) (s : State) : lineWorks (elapse dt s) = lineWorks s := by
  simp only [lineWorks, elapse_inReset, elapse_image]

theorem elapse_rows (dt : Nat) (s : State) : (elapse dt s).peers.rows = s.peers.rows := by
  unfold elapse; split <;> rfl

theorem elapse_adopted (dt : Nat) (s : State) : (elapse dt s).order.adopted = s.order.adopted := by
  unfold elapse; split <;> rfl

/-- Of the line other nodes and time move, by level and by count, the idle, the dominant run and the changes still to come alone (R170,
R173). -/
theorem takeChanges_eq (dt : Nat) (coming : List LineChange) (l : Line) :
    takeChanges dt coming l =
      { l with
        idle := (takeChanges dt coming l).idle
        dominantRun := (takeChanges dt coming l).dominantRun
        changes := (takeChanges dt coming l).changes } := by
  induction coming generalizing dt l with
  | nil => rfl
  | cons c cs ih =>
    unfold takeChanges
    split
    · rw [ih]; unfold takeLevel runLevel; split <;> rfl
    · rfl

/-- No node ends a line's being busy by a change of its level (R170). -/
theorem takeChanges_busy (dt : Nat) (coming : List LineChange) {l : Line} (h : l.idle = false) :
    (takeChanges dt coming l).idle = false := by
  induction coming generalizing dt l with
  | nil => exact h
  | cons c cs ih =>
    unfold takeChanges
    split
    · exact ih _ (by unfold takeLevel runLevel; split <;> simp [h])
    · exact h

/-- While no change falls due, the run counts on and the changes come nearer. -/
theorem takeChanges_of_none_due {dt : Nat} {coming : List LineChange} (l : Line) (h : NoChangeWithin dt coming) :
    takeChanges dt coming l =
      { runLevel dt l with
        changes := match coming with
          | [] => []
          | c :: cs => { c with wait := c.wait - dt } :: cs } := by
  cases coming with
  | nil => rfl
  | cons c cs =>
    have : ¬ c.wait ≤ dt := Nat.not_le.mpr (h c rfl)
    simp [takeChanges, this]

/-- A change that falls due is made at its moment, and the rest of the time runs on with the changes after it. -/
theorem takeChanges_of_due {dt : Nat} {c : LineChange} (cs : List LineChange) (l : Line) (h : c.wait ≤ dt) :
    takeChanges dt (c :: cs) l = takeChanges (dt - c.wait) cs (takeLevel c.dominant (runLevel c.wait l)) := by
  simp [takeChanges, h]

/-- Of the line's level, time moves what the changes of the other nodes and the run give. -/
theorem elapse_level_of_line {dt : Nat} {s : State} (h : s.loader.inReset = false) :
    (elapse dt s).line.idle = (takeChanges dt s.line.changes s.line).idle ∧
      (elapse dt s).line.dominantRun = (takeChanges dt s.line.changes s.line).dominantRun ∧
      (elapse dt s).line.changes = (takeChanges dt s.line.changes s.line).changes := by
  simp [elapse, h]

/-- An idle line has no dominant run, whatever the other nodes do (R170, R173). -/
theorem takeChanges_idle_recessive (dt : Nat) (coming : List LineChange) {l : Line} (h : l.idle = true → l.dominantRun = none) :
    (takeChanges dt coming l).idle = true → (takeChanges dt coming l).dominantRun = none := by
  have count : ∀ (n : Nat) {m : Line}, (m.idle = true → m.dominantRun = none) →
      ((runLevel n m).idle = true → (runLevel n m).dominantRun = none) := by
    intro n m hm hi
    have := hm hi
    simp [runLevel, runTimer, this]
  induction coming generalizing dt l with
  | nil => exact count dt h
  | cons c cs ih =>
    unfold takeChanges
    split
    · refine ih _ ?_
      unfold takeLevel
      split
      · simp
      · simp
    · exact count dt h

/-- Of the Mode Controller time moves the storm clear timer alone. -/
theorem elapse_modeCtl (dt : Nat) (s : State) :
    (elapse dt s).modeCtl =
      { s.modeCtl with
        stormClear := if s.loader.inReset then s.modeCtl.stormClear else runTimer dt s.modeCtl.stormClear } := by
  unfold elapse; split <;> simp_all

/-- Of the Grant Unit time moves the three timers alone. -/
theorem elapse_grant (dt : Nat) (s : State) (h : s.loader.inReset = false) :
    (elapse dt s).grant =
      { s.grant with
        announceTimer := runTimer dt s.grant.announceTimer
        warnTimer := runTimer dt s.grant.warnTimer
        pumpTimer := runTimer dt s.grant.pumpTimer } := by
  simp [elapse, h]

theorem condition_elapse (k : FaultKind) (dt : Nat) (s : State) : condition k (elapse dt s) = condition k s :=
  condition_congr k (by rw [elapse_modeCtl])

theorem haltInForce_elapse (dt : Nat) (s : State) : haltInForce (elapse dt s) = haltInForce s := by
  simp only [haltInForce, elapse_adopted, elapse_strap]


/-! ### The claim and its outputs -/

/-- The outputs follow the move state (R89). -/
theorem claimIn_outputs (m : MoveState) (g : Grant) :
    OutputsFollow (claimIn m g) := ⟨rfl, rfl, rfl⟩

/-- What standing still leaves of the claim: none of it, and every output off (R92, R95, R100, R102). -/
theorem standStill_grant (s : State) :
    (standStill s).grant =
      { s.grant with
        moveState := .still, moveKind := .noClaim, ticket := 0, announceTimer := none, warnTimer := none, pumpTimer := none
        horn := false, pumpRun := false, driveEnable := false } := by
  unfold standStill; split <;> rfl

/-- What standing still does to the valves: at rest if the gate was moving, else untouched (R112). -/
theorem standStill_drive (s : State) :
    (standStill s).drive = if s.grant.moveState = .moving then driveAtRest s else s.drive := by
  unfold standStill; split <;> simp_all

/-- The conditions that describe a move end with it (R98, R114, R116). -/
theorem standStill_modeCtl (s : State) :
    (standStill s).modeCtl =
      { s.modeCtl with
        active := dropFault .pump (dropFault .stall (dropFault .valveR (dropFault .valveL s.modeCtl.active))) } := by
  unfold standStill; split <;> rfl

/-- HALT leaves every claim STILL (R59). -/
theorem haltStop_still (s : State) : (haltStop s).grant.moveState = .still := by
  unfold haltStop
  split
  · assumption
  · rw [standStill_grant]
  · rw [standStill_grant]

/-- At a transition into FAULT the claim is gone and every output off (R102). -/
theorem claimAtTransition_fault (s : State) : claimAtTransition .fault s = standStill s := rfl

/-! ### Arrivals (R174, R176) -/

/-- A receiver that takes no frame takes none. -/
theorem arrival_of_not_receiving {s : State} (source : Byte) (f : State → State) (h : receiving s = false) : arrival source f s = s := by
  simp [arrival, h]

/-- A valid frame is taken as `f` says, after what every arrival does. -/
theorem arrival_of_receiving {s : State} {source : Byte} (f : State → State) (h : receiving s = true) (hs : source.toNat ≤ 23) :
    arrival source f s = f (frameArrives s) := by
  have : ¬ 23 < source.toNat := by omega
  simp [arrival, h, this]

/-- A frame with a SOURCE above 23 is dropped and counted. -/
theorem arrival_of_bad_source {s : State} {source : Byte} (f : State → State) (h : receiving s = true) (hs : 23 < source.toNat) :
    arrival source f s = dropAtArrival s := by
  simp [arrival, h, hs]

/-- What every arrival of a valid frame does (R40, R170, R176). -/
theorem frameArrives_eq (s : State) :
    frameArrives s = { s with line := heardLine s.line, modeCtl := heardModes s.modeCtl } := rfl

/-! ### Commands (R62, R63) -/

/-- The answer of a command. -/
theorem answer_eq (source tag code : Nat) (result : CommandResult) (s : State) :
    answer source tag code result s =
      { s with
        order := { s.order with lastCommand := some { source := source, tag := tag, code := code, result := result } }
        line := { s.line with mark := true } } := rfl

/-- A command from a station number is dropped and counted. -/
theorem addressed_of_station {source target : Nat} (f : State → State) (s : State) (h : source ≤ 15) :
    addressed source target f s = countError s := by simp [addressed, h]

/-- A command for another station is ignored. -/
theorem addressed_of_other {source target : Nat} (f : State → State) (s : State) (h : 16 ≤ source) (h₁ : target ≠ 255)
    (h₂ : target ≠ s.loader.strap) : addressed source target f s = s := by
  have : ¬ source ≤ 15 := by omega
  simp [addressed, this, h₁, h₂]

/-- A command for this station, or for every station, is treated. -/
theorem addressed_of_own {source target : Nat} (f : State → State) (s : State) (h : 16 ≤ source)
    (ht : target = 255 ∨ target = s.loader.strap) : addressed source target f s = f s := by
  have : ¬ source ≤ 15 := by omega
  simp [addressed, this, ht]

/-- A command without the authority it requires is answered so, and not carried out. -/
theorem authorised_of_low {img : Image} {source tag code level : Nat} (f : Image → State → State) {s : State}
    (hi : acceptedImage s = some img) (h : authorityOf img source < level) :
    authorised source tag code level f s = answer source tag code .refusedAuthority s := by
  simp [authorised, hi, h]

/-- After a rejected image no console has authority (R70). -/
theorem authorised_of_none {source tag code level : Nat} (f : Image → State → State) {s : State} (hi : acceptedImage s = none) :
    authorised source tag code level f s = answer source tag code .refusedAuthority s := by
  simp [authorised, hi]

/-- A command with its authority is carried out. -/
theorem authorised_of_level {img : Image} {source tag code level : Nat} (f : Image → State → State) {s : State}
    (hi : acceptedImage s = some img) (h : level ≤ authorityOf img source) :
    authorised source tag code level f s = f img s := by
  have : ¬ authorityOf img source < level := by omega
  simp [authorised, hi, this]

/-- A command that reaches the station from a console of sufficient authority is carried out and answered. -/
theorem command_carried_out {img : Image} {source target tag : Byte} {code level : Nat} (act : State → State × CommandResult)
    {s : State} (h : CommandReaches s source target) (hi : acceptedImage s = some img)
    (ha : level ≤ authorityOf img source.toNat) :
    command source target tag code level act s =
      answer source.toNat tag.toNat code (act (frameArrives s)).2 (act (frameArrives s)).1 := by
  obtain ⟨hr, h16, h23, ht⟩ := h
  unfold command
  rw [arrival_of_receiving _ hr h23, addressed_of_own _ (frameArrives s) h16 ht,
    authorised_of_level _ (s := frameArrives s) hi ha]
  rfl

/-- A command that reaches the station from a console of too low an authority is answered REFUSED_AUTHORITY. -/
theorem command_refused {img : Image} {source target tag : Byte} {code level : Nat} (act : State → State × CommandResult)
    {s : State} (h : CommandReaches s source target) (hi : acceptedImage s = some img)
    (ha : authorityOf img source.toNat < level) :
    command source target tag code level act s = answer source.toNat tag.toNat code .refusedAuthority (frameArrives s) := by
  obtain ⟨hr, h16, h23, ht⟩ := h
  unfold command
  rw [arrival_of_receiving _ hr h23, addressed_of_own _ (frameArrives s) h16 ht, authorised_of_low _ (s := frameArrives s) hi ha]

/-! ### The end of an event -/

/-- An event that leaves the line alone ends with a report, or with nothing on the line but the mark. -/
theorem concludeEvent_reported (s t : State) : Reported t.line (concludeEvent s t).line := concludeEvent_line_only s t

/-- The end of an event changes the line alone. -/
theorem concludeEvent_eq (s t : State) : concludeEvent s t = { t with line := (concludeEvent s t).line } := by
  have h : ∀ a b : State, a.loader = b.loader → a.position = b.position → a.level = b.level → a.tide = b.tide →
      a.peers = b.peers → a.order = b.order → a.target = b.target → a.grant = b.grant → a.drive = b.drive → a.plan = b.plan →
      a.modeCtl = b.modeCtl → a.line = b.line → a.clocks = b.clocks → a.pending = b.pending → a = b := by
    intro a b; cases a; cases b; simp_all
  apply h <;> simp

/-- A mark set before the end of an event is set after it, or has been served with a report built from the state the event left. -/
theorem concludeEvent_mark {s t : State} (h : t.line.mark = true) :
    (concludeEvent s t).line.mark = true ∨ (concludeEvent s t).line.stateSlot = some (buildState (markChanges s t)) := by
  rw [concludeEvent_line]
  split
  · exact .inr rfl
  · exact .inl (by simp [h])

end Sys2Proof.Machine
end

