-- ==== Sys2Proof/Laws/Modes.lean ====
section
/-! SUPPORT. Once for the transitions of the mode and the operations of the Plan Sequencer, what they do to the mode, the relay, the storm
conditions and the fault sets (R129, R130, R140, R149 to R151, R155, R156). -/

namespace Sys2Proof.Machine

open Sys2Proof.Safety

/-- What the Plan Sequencer may touch of the Mode Controller: nothing but PLAN_BAD in the latched set, the first-fault record with it, and
the active set without PLAN_BAD. -/
def PlanOnly (m m' : ModeCtl) : Prop :=
  m' = { m with active := m'.active, latched := m'.latched, firstFault := m'.firstFault } ∧
    ∀ k, k ≠ .planBad → hasFault k m'.active = hasFault k m.active ∧ hasFault k m'.latched = hasFault k m.latched

theorem PlanOnly.refl (m : ModeCtl) : PlanOnly m m := ⟨rfl, fun _ _ => ⟨rfl, rfl⟩⟩

theorem PlanOnly.trans {a b c : ModeCtl} (h : PlanOnly a b) (g : PlanOnly b c) : PlanOnly a c := by
  obtain ⟨h₁, h₂⟩ := h
  obtain ⟨g₁, g₂⟩ := g
  refine ⟨?_, fun k hk => ⟨(g₂ k hk).1.trans (h₂ k hk).1, (g₂ k hk).2.trans (h₂ k hk).2⟩⟩
  rw [g₁, h₁]

/-- What PlanOnly says of the parts that a later proof reads. -/
theorem PlanOnly.fields {m m' : ModeCtl} (h : PlanOnly m m') :
    m'.mode = m.mode ∧ m'.relay = m.relay ∧ m'.condOrder = m.condOrder ∧ m'.condInput = m.condInput ∧
      m'.condLevel = m.condLevel ∧ m'.stormClear = m.stormClear ∧ m'.save = m.save ∧ m'.maintKey = m.maintKey ∧
      m'.localKey = m.localKey ∧ m'.stormInput = m.stormInput := by
  have := h.1
  refine ⟨?_, ?_, ?_, ?_, ?_, ?_, ?_, ?_, ?_, ?_⟩ <;> rw [this]

theorem latchKinds_planBad (s : State) : PlanOnly s.modeCtl (latchKinds [.planBad] s).modeCtl := by
  cases h : condition .planBad s with
  | true => rw [latchKinds_of_active h]; exact .refl _
  | false =>
    rw [latchKinds_of_inactive h]
    refine ⟨rfl, fun k hk => ?_⟩
    simp [State.withModeCtl, hk]

theorem clearKinds_planBad (s : State) : PlanOnly s.modeCtl (clearKinds [.planBad] s).modeCtl := by
  refine ⟨rfl, fun k hk => ?_⟩
  simp [clearKinds_one, State.withModeCtl, hk]

theorem failPlan_modeCtl (s : State) : PlanOnly s.modeCtl (failPlan s).modeCtl :=
  (latchKinds_planBad _).trans (clearKinds_planBad _)

theorem refill_modeCtl (s : State) : PlanOnly s.modeCtl (refill s).modeCtl := by
  unfold refill
  split
  · exact .refl _
  · split
    · split
      · exact .refl _
      · exact failPlan_modeCtl s
    · exact .refl _

/-- A chain of operations: the last one after the others. -/
theorem PlanOnly.refill {m : ModeCtl} {s : State} (h : PlanOnly m s.modeCtl) : PlanOnly m (refill s).modeCtl :=
  h.trans (refill_modeCtl s)

theorem takeStep_modeCtl (s : State) : PlanOnly s.modeCtl (takeStep s).modeCtl := by
  unfold takeStep
  split
  · exact .refl _
  · split
    · split
      · exact PlanOnly.refill (.refl _)
      · split <;> exact .refl _
    · exact .refl _

theorem removePlanBad_modeCtl (s : State) : PlanOnly s.modeCtl (removePlanBad s).modeCtl := by
  refine ⟨rfl, fun k hk => ?_⟩
  simp [removePlanBad, unlatch, State.withModeCtl, hk]

theorem startPlan_modeCtl (n : Nat) (s : State) : PlanOnly s.modeCtl (startPlan n s).modeCtl := by
  unfold startPlan
  split
  · exact .refl _
  · simp only
    split
    · exact (removePlanBad_modeCtl s).trans (failPlan_modeCtl _)
    · refine PlanOnly.trans (PlanOnly.refill ?_) (takeStep_modeCtl _)
      exact removePlanBad_modeCtl s

theorem takePlanAction_modeCtl (s : State) : PlanOnly s.modeCtl (takePlanAction s).modeCtl := by
  unfold takePlanAction
  split
  · rw [abandonPlan_modeCtl]; exact .refl _
  · exact startPlan_modeCtl _ s
  · exact .refl _

/-- The entry into FAULT, whole: mode and relay, the claim gone and the outputs off, a RUNNING plan held on leaving AUTO (R142, R149 to
R151, R102). -/
theorem enterMode_fault (s : State) :
    enterMode .fault s =
      if s.modeCtl.mode = .auto then holdPlan (standStill (setMode .fault s)) else standStill (setMode .fault s) := by
  unfold enterMode takeStormSave restoreInto claimAtTransition
  simp

/-- Standing still touches of the Mode Controller the active set alone. -/
theorem standStill_modes (s : State) :
    (standStill s).modeCtl.mode = s.modeCtl.mode ∧ (standStill s).modeCtl.relay = s.modeCtl.relay ∧
      (standStill s).modeCtl.latched = s.modeCtl.latched ∧ (standStill s).modeCtl.firstFault = s.modeCtl.firstFault ∧
      (standStill s).modeCtl.save = s.modeCtl.save := by
  rw [standStill_modeCtl]; exact ⟨rfl, rfl, rfl, rfl, rfl⟩

/-- After the entry into FAULT the station stands in FAULT. -/
theorem enterMode_fault_stands (s : State) : StandsInFault (enterMode .fault s) := by
  rw [enterMode_fault]
  have hm := standStill_modes (setMode .fault s)
  have hg := standStill_grant (setMode .fault s)
  have key : ∀ t : State, t.modeCtl = (standStill (setMode .fault s)).modeCtl →
      t.grant = (standStill (setMode .fault s)).grant → StandsInFault t := by
    intro t h₁ h₂
    refine ⟨?_, ?_, ?_, ?_, ?_, ?_, ?_, ?_, ?_, ?_, ?_⟩ <;> first | rw [h₁] | rw [h₂, hg]
    · exact hm.1
    · exact hm.2.1
  split
  · exact key _ (holdPlan_modeCtl _) (by unfold holdPlan; split <;> rfl)
  · exact key _ rfl rfl

/-- Of the Mode Controller the storm clear timer alone follows the conditions (R156). -/
theorem stormTimerAfter_modeCtl (before s : State) :
    (stormTimerAfter before s).modeCtl = { s.modeCtl with stormClear := (stormTimerAfter before s).modeCtl.stormClear } := rfl

end Sys2Proof.Machine
end

