-- ==== Sys2Proof/Laws/Entry.lean ====
section
/-! SUPPORT. Once for an entry into a mode, for an adoption and for kinds that are raised together, what becomes of the claim (R59, R101, R102),
of the plan (R58, R129, R132, R140, R142, R145, R150, R157), of the save (R155) and of the fault sets (R160 to R162). -/

set_option Elab.async false

namespace Sys2Proof.Machine

open Sys2Proof.Safety

/-! ### The claim -/

/-- At a transition into STORM or MAINT every claim is treated as R101 says. -/
theorem claimAtTransition_bypassed {s : State} {img : Image} {new : Mode} (hi : acceptedImage s = some img)
    (hn : new = .storm ∨ new = .maint) : ClaimBypassed (bypassLead img new) s (claimAtTransition new s) := by
  rcases hn with rfl | rfl <;> unfold claimAtTransition <;> simp only [hi] <;> (split <;> rename_i hm) <;>
    simp [ClaimBypassed, hm, standStill_grant, standStill_drive, State.withGrant, setLimited, State.withTarget] <;>
    split <;> simp_all

/-- The valves at rest after the setpoint has gone to the opening. -/
theorem driveAtRest_setpointToOpening (s : State) : driveAtRest (setpointToOpening s) = driveHalted s := rfl

/-- What HALT makes of the claim and the valves (R59). -/
theorem haltStop_claim (s : State) :
    (haltStop s).grant = (if s.grant.moveState = .still then s.grant else claimStill s.grant) ∧
      (haltStop s).drive = (if s.grant.moveState = .moving then driveHalted s else s.drive) := by
  unfold haltStop
  split <;> rename_i hm
  · simp [hm]
  · simp [hm, standStill_grant, standStill_drive, driveAtRest_setpointToOpening]
  · cases h : s.grant.moveState <;> simp_all [standStill_grant, standStill_drive]

/-- At a transition into AUTO or LOCAL a bypass claim stops, a moving gate at its opening (R101). -/
theorem claimAtTransition_unbypassed {s : State} {new : Mode} (hn : new = .auto ∨ new = .loc) :
    ClaimUnbypassed False s (claimAtTransition new s) := by
  rcases hn with rfl | rfl <;> unfold claimAtTransition <;> by_cases hk : s.grant.moveKind = .bypass <;>
    cases hm : s.grant.moveState <;>
    simp [ClaimUnbypassed, ClaimStops, underWay, hk, hm, driveAtRest_setpointToOpening, standStill_grant, standStill_drive]

/-- HALT stops what the transition has left of the claim (R59, R101, R150). -/
theorem ClaimUnbypassed.halted {b t : State} (h : ClaimUnbypassed False b t) (hp : t.position = b.position) (hl : t.loader = b.loader) :
    ClaimUnbypassed True b (haltStop t) := by
  obtain ⟨hlim, hs, hn⟩ := h
  have hc := haltStop_claim t
  have hd : ∀ x : State, x.drive = b.drive → x.position = b.position → x.loader = b.loader → driveHalted x = driveHalted b := by
    intro x h₁ h₂ h₃; simp only [driveHalted, h₁, h₂, nullCode_congr _ h₃]
  refine ⟨by rw [haltStop_target]; exact hlim, fun hst => ?_, fun hst => ?_⟩
  · by_cases hb : ClaimStops False b
    · obtain ⟨hg, hdr⟩ := hs hb
      rw [hc.1, hc.2, hg, hdr]; simp
    · obtain ⟨hg, hdr⟩ := hn hb
      rw [hc.1, hc.2, hd t hdr hp hl, hg, hdr]; simp [hst.1]
  · have hb : b.grant.moveState = .still := by
      cases h : b.grant.moveState <;> simp_all [ClaimStops]
    obtain ⟨hg, hdr⟩ := hn (by simp [ClaimStops, hb])
    rw [hc.1, hc.2, hg, hdr]; simp [hb]

/-! ### The interpreter and the taking of a step -/

/-- An action of a refill touches the interpreter and the queue alone (R124, R127). -/
theorem refillAction_frame {img : Image} {p q : Plan} (h : refillAction img p = some q) :
    q = { p with interp := q.interp, queue := q.queue } := by
  unfold refillAction at h
  split at h
  · split at h <;> simp at h; subst h; rfl
  · split at h
    · split at h
      · simp at h
      · obtain ⟨i, -, rfl⟩ := Option.map_eq_some_iff.mp h; rfl
    · simp at h

/-- A refill touches the interpreter and the queue alone (R127). -/
theorem refillLoop_frame {img : Image} (n : Nat) {p q : Plan} (h : refillLoop img n p = some q) :
    q = { p with interp := q.interp, queue := q.queue } := by
  induction n generalizing p with
  | zero => simp [refillLoop] at h; subst h; rfl
  | succ n ih =>
    unfold refillLoop at h
    split at h
    · simp at h; subst h; rfl
    · split at h
      · simp at h
      · rename_i p' hp
        have := ih h
        rw [refillAction_frame hp] at this
        exact this

/-- A plan error: the plan FAILED, no step start opening, PLAN_BAD latched and at once inactive (R129, R130). -/
theorem failPlan_cases (s : State) :
    (failPlan s).plan = planFailed s.plan ∧ (failPlan s).target = { s.target with stepStart := .absent } ∧
      condition .planBad (failPlan s) = false ∧
      (condition .planBad s = false → (failPlan s).modeCtl.latched = addFault .planBad s.modeCtl.latched) := by
  refine ⟨rfl, rfl, ?_, fun h => ?_⟩
  · simp [failPlan, condition, clearKinds_one, State.withModeCtl]
  · have h' : condition .planBad
      ((s.withPlan { s.plan with
        state := .failed, interp := .cleared, queue := [], current := none, finishAtHold := false, resume := none }).withTarget
          { s.target with stepStart := .absent }) = false := h
    simp only [failPlan, clearKinds_one, State.withModeCtl]
    erw [latchKinds_of_inactive h']
    rfl

/-- A refill of a RUNNING plan (R127, R129). -/
theorem refill_cases {s : State} {img : Image} (hi : acceptedImage s = some img) (hr : s.plan.state = .running) :
    (∀ p, refillLoop img refillFuel s.plan = some p → refill s = s.withPlan p) ∧
      (refillLoop img refillFuel s.plan = none → refill s = failPlan s) := by
  unfold refill
  simp only [hi, hr, if_true]
  exact ⟨fun p h => by rw [h], fun h => by rw [h]⟩

/-- A take does nothing to a plan that does not run, has a current step, or is halted (R132). -/
theorem takeStep_none {s : State} (h : s.plan.state ≠ .running ∨ s.plan.current ≠ none ∨ haltInForce s = true) : takeStep s = s := by
  unfold takeStep
  split
  · rfl
  · rw [if_neg]; intro ⟨h₁, h₂, h₃⟩; simp_all

/-- A take of a RUNNING plan without a current step, HALT not in force (R132): what it makes of the plan, and of PLAN_BAD. -/
theorem takeStep_taken {s : State} {img : Image} (hi : acceptedImage s = some img) (hr : s.plan.state = .running)
    (hc : s.plan.current = none) (hh : haltInForce s = false) :
    StepTaken img s s.plan (takeStep s).plan (takeStep s).target.stepStart ∧
      PlanBadLatched s.modeCtl.latched s (takeStep s) ∧
      (condition .planBad s = false → condition .planBad (takeStep s) = false) := by
  unfold takeStep
  simp only [hi, hr, hc, hh, and_self, if_true]
  split
  · rename_i i rest hq
    obtain ⟨hsome, hnone⟩ := refill_cases (s := beginStep img i rest s) (img := img) hi hr
    cases hl : refillLoop img refillFuel (planBegun img i rest s.plan) with
    | some p =>
      rw [hsome p hl]
      have hp : p.state = .running := by rw [refillLoop_frame _ hl]; exact hr
      refine ⟨⟨?_, ?_⟩, ⟨fun _ => rfl, fun h => ?_⟩, fun h => h⟩
      · intro j r h
        obtain ⟨rfl, rfl⟩ : i = j ∧ rest = r := by simpa [hq] using h
        exact ⟨fun x hx => ⟨Option.some.inj (hl.symm.trans hx), rfl⟩, fun hx => by simp [hl] at hx⟩
      · intro h; simp [hq] at h
      · exact absurd (hp.symm.trans h) (by decide)
    | none =>
      rw [hnone hl]
      obtain ⟨hp, ht, hb, hlat⟩ := failPlan_cases (beginStep img i rest s)
      refine ⟨⟨?_, ?_⟩, ⟨fun h => ?_, fun _ h => hlat h⟩, fun _ => hb⟩
      · intro j r h
        obtain ⟨rfl, rfl⟩ : i = j ∧ rest = r := by simpa [hq] using h
        exact ⟨fun x hx => by simp [hl] at hx, fun _ => ⟨hp, by rw [ht]⟩⟩
      · intro h; simp [hq] at h
      · exact absurd (by rw [hp]) h
  · rename_i hq
    split <;> rename_i he
    · refine ⟨⟨?_, fun _ _ => ⟨rfl, rfl⟩⟩, ⟨fun _ => rfl, fun h => ?_⟩, fun h => h⟩
      · intro j r h; simp [hq] at h
      · simp [endPlan, State.withPlan, State.withTarget] at h
    · refine ⟨⟨?_, fun _ h => absurd h he⟩, ⟨fun _ => rfl, fun h => ?_⟩, fun h => h⟩
      · intro j r h; simp [hq] at h
      · exact absurd (hr.symm.trans h) (by decide)

/-- The refill of a RUNNING plan with the take that follows it (R127, R129, R132, R140, R145): what becomes of the plan and of PLAN_BAD. -/
theorem takeStep_refill {s : State} {img : Image} (hi : acceptedImage s = some img) (hr : s.plan.state = .running) :
    (refillLoop img refillFuel s.plan = none →
      (takeStep (refill s)).plan = planFailed s.plan ∧ (takeStep (refill s)).target.stepStart = .absent) ∧
    (∀ p, refillLoop img refillFuel s.plan = some p →
      (s.plan.current.isSome ∨ haltInForce s = true →
        (takeStep (refill s)).plan = p ∧ (takeStep (refill s)).target.stepStart = s.target.stepStart) ∧
      (s.plan.current = none → haltInForce s = false →
        StepTaken img s p (takeStep (refill s)).plan (takeStep (refill s)).target.stepStart)) ∧
    PlanBadLatched s.modeCtl.latched s (takeStep (refill s)) ∧
    (condition .planBad s = false → condition .planBad (takeStep (refill s)) = false) := by
  obtain ⟨hsome, hnone⟩ := refill_cases hi hr
  cases hl : refillLoop img refillFuel s.plan with
  | none =>
    obtain ⟨hp, ht, hb, hlat⟩ := failPlan_cases s
    rw [hnone hl, takeStep_none (.inl (by rw [hp]; simp))]
    refine ⟨fun _ => ⟨hp, by rw [ht]⟩, fun p h => by simp at h, ⟨fun h => absurd (by rw [hp]) h, fun _ h => hlat h⟩, fun _ => hb⟩
  | some p =>
    have hf := refillLoop_frame _ hl
    have hp : p.state = .running := by rw [hf]; exact hr
    have hc : p.current = s.plan.current := by rw [hf]
    rw [hsome p hl]
    by_cases h : s.plan.current = none ∧ haltInForce s = false
    · obtain ⟨h₁, h₂, h₃⟩ := takeStep_taken (s := s.withPlan p) hi hp (hc.trans h.1) h.2
      refine ⟨fun h => by simp at h, fun q hq => ⟨fun hn => ?_, fun _ _ => ?_⟩, h₂, h₃⟩
      · rcases hn with hn | hn
        · rw [h.1] at hn; simp at hn
        · rw [h.2] at hn; simp at hn
      · cases hq; exact h₁
    · have hs : takeStep (s.withPlan p) = s.withPlan p := by
        apply takeStep_none
        by_cases h₁ : s.plan.current = none
        · exact .inr (.inr (Bool.eq_true_of_not_eq_false fun h₂ => h ⟨h₁, h₂⟩))
        · exact .inr (.inl (by rw [← hc] at h₁; exact h₁))
      rw [hs]
      refine ⟨fun h => by simp at h, fun q hq => ⟨fun _ => ?_, fun h₁ h₂ => absurd ⟨h₁, h₂⟩ h⟩, ⟨fun _ => rfl, fun h => ?_⟩, fun h => h⟩
      · cases hq; exact ⟨rfl, rfl⟩
      · exact absurd (hp.symm.trans h) (by decide)

/-! ### The plan action and the restored save -/

/-- The station as the plan `n` begins to run from its code at `a` (R140), before the first refill. -/
def planStarting (n a : Nat) (s : State) : State :=
  { s with
    plan :=
      { s.plan with
        state := .running, number := some n, interp := { Interp.cleared with codePtr := a }, queue := [], current := none, dwell := 0
        finishAtHold := false, resume := none }
    target := { s.target with stepStart := .absent }, tide := { s.tide with expected := .opens, latch := false }
    modeCtl := (removePlanBad s).modeCtl }

/-- A plan start with an entry in the directory (R140). -/
theorem startPlan_of_entry {s : State} {img : Image} {n a : Nat} (hi : acceptedImage s = some img)
    (hd : img.directory.getD n none = some a) : startPlan n s = takeStep (refill (planStarting n a s)) := by
  unfold startPlan
  simp only [hi, hd]
  rfl

/-- A plan start (R140). -/
theorem startPlan_started {s : State} {img : Image} (n : Nat) (hi : acceptedImage s = some img) :
    PlanStarted img n s (startPlan n s).plan (startPlan n s).target.stepStart ∧
      (startPlan n s).tide = { s.tide with expected := .opens, latch := false } ∧
      PlanBadLatched (dropFault .planBad s.modeCtl.latched) s (startPlan n s) := by
  cases hd : img.directory.getD n none with
  | none =>
    unfold startPlan
    simp only [hi, hd]
    refine ⟨?_, rfl, fun h => absurd rfl h, fun _ h => (failPlan_cases _).2.2.2 h⟩
    rintro fresh rfl
    exact ⟨fun _ => ⟨rfl, rfl⟩, fun a first h => by rw [hd] at h; simp at h⟩
  | some a =>
    rw [startPlan_of_entry hi hd]
    obtain ⟨hn, hs, hb, -⟩ := takeStep_refill (s := planStarting n a s) hi rfl
    refine ⟨?_, by rw [takeStep_tide, refill_tide]; rfl, hb⟩
    rintro fresh rfl
    refine ⟨fun h => by rw [hd] at h; simp at h, fun b first hb' hf => ?_⟩
    obtain rfl : a = b := Option.some.inj (hd.symm.trans hb')
    subst hf
    exact ⟨hn, fun q hq => ⟨fun h => (hs q hq).1 (.inr h), fun h => (hs q hq).2 rfl h⟩⟩

/-- The plan action of the adopted order (R58). -/
theorem takePlanAction_taken {s : State} {img : Image} (hi : acceptedImage s = some img) : PlanActionTaken img s (takePlanAction s) := by
  unfold takePlanAction planActionOf
  refine ⟨fun h => by simp [h, PlanUntouched], fun o ho => ?_⟩
  have happ : orderApplies s = o.mask.getLsbD s.loader.strap := by simp [orderApplies, ho]
  simp only [ho, happ]
  refine ⟨fun h => ?_, fun n hm hp => ?_⟩
  · have hab : ∀ t, t = abandonPlan s →
        (PlanLive s.plan.state →
          t.plan = planIdle s.plan ∧ t.target.stepStart = .absent ∧ t.tide = s.tide ∧ t.modeCtl.latched = s.modeCtl.latched) ∧
        (¬ PlanLive s.plan.state → PlanUntouched s t) := by
      rintro t rfl
      unfold abandonPlan
      exact ⟨fun h => by rw [if_pos h]; exact ⟨rfl, rfl, rfl, rfl⟩, fun h => by rw [if_neg h]; exact ⟨rfl, rfl, rfl, rfl⟩⟩
    apply hab
    rcases h with h | h
    · simp [h]
    · simp only [h, ite_self]
  · simp only [hm, hp, if_true]
    refine ⟨fun h₁ h₂ h₃ => ?_, fun h => ?_⟩
    · rw [if_pos ⟨h₁, h₂, h₃⟩]; exact ⟨rfl, rfl, rfl, rfl⟩
    · have : ¬ (PlanLive s.plan.state ∧ s.plan.number = some n ∧ o.restartPlan = false) := by
        rintro ⟨h₁, h₂, h₃⟩
        rcases h with h | h | h
        · exact h h₁
        · exact h h₂
        · simp [h₃] at h
      rw [if_neg this]
      exact startPlan_started n hi

/-- The station with a storm save restored (R157), before the Sequencer adjusts the plan. -/
def saveRestored (c : StormSave) (s : State) : State :=
  { s with
    plan :=
      { s.plan with
        state := c.state, number := c.number, interp := c.interp, queue := c.queue, current := c.current, phase := c.phase
        dwell := c.dwell }
    tide := { s.tide with expected := c.expected }, modeCtl := { s.modeCtl with save := none } }

/-- A restore with a save held (R157). -/
theorem restoreSave_of_save {s : State} {c : StormSave} (m : Mode) (hc : s.modeCtl.save = some c) :
    restoreSave m s = adjustRestored m (saveRestored c s) := by
  unfold restoreSave
  simp only [hc]
  rfl

/-- A storm save restored into AUTO (R145, R157). -/
theorem restoreSave_restored {s : State} {img : Image} {c : StormSave} (hi : acceptedImage s = some img)
    (hc : s.modeCtl.save = some c) :
    PlanRestored img c s (restoreSave .auto s) ∧ (restoreSave .auto s).modeCtl.save = none ∧
      (condition .planBad s = false → condition .planBad (restoreSave .auto s) = false) := by
  rw [restoreSave_of_save _ hc]
  unfold adjustRestored
  split <;> rename_i hs
  · have hs' : c.state = .running := hs
    simp only [if_true]
    generalize hb : State.withPlan _ _ = b
    obtain ⟨hn, hsome, hl, hk⟩ := takeStep_refill (s := b) (img := img) (by rw [← hb]; exact hi) (by rw [← hb]; exact hs)
    have hm := (PlanOnly.refill (.refl b.modeCtl)).trans (takeStep_modeCtl (refill b))
    subst hb
    refine ⟨⟨by rw [takeStep_tide, refill_tide]; rfl, ?_⟩, by rw [hm.fields.2.2.2.2.2.2.1]; rfl, hk⟩
    rintro q rfl
    refine ⟨fun _ r hr => ?_, fun h => ?_, fun h => ?_, fun h => absurd hs' h⟩
    · subst hr
      refine ⟨hl, hn, fun p hp => ⟨fun h => (hsome p hp).1 h, fun h₁ h₂ => (hsome p hp).2 h₁ h₂⟩⟩
    · simp [hs'] at h
    · simp [PlanLive, hs'] at h
  · have hs' : c.state = .held := hs
    refine ⟨⟨rfl, ?_⟩, rfl, fun h => h⟩
    rintro q rfl
    exact ⟨fun h => by simp [hs'] at h, fun _ => rfl, fun h => by simp [PlanLive, hs'] at h, fun _ => ⟨rfl, rfl⟩⟩
  · rename_i h₁
    have h₁' : c.state ≠ .running := h₁
    have hs' : c.state ≠ .held := hs
    refine ⟨⟨rfl, ?_⟩, rfl, fun h => h⟩
    rintro q rfl
    exact ⟨fun h => absurd h h₁', fun h => absurd h hs', fun _ => rfl, fun _ => ⟨rfl, rfl⟩⟩

/-! ### The entry into AUTO -/

/-- A station that differs from another in its claim and its valves, and in the Mode Controller beside save, latched set and PLAN_BAD. -/
def ClaimApart (b c : State) : Prop :=
  (c.loader = b.loader ∧ c.order = b.order ∧ c.position = b.position) ∧ c.plan = b.plan ∧ c.tide = b.tide ∧
    c.target.stepStart = b.target.stepStart ∧ c.modeCtl.latched = b.modeCtl.latched ∧ c.modeCtl.save = b.modeCtl.save ∧
    (condition .planBad b = false → condition .planBad c = false)

theorem ClaimApart.refl (s : State) : ClaimApart s s := ⟨⟨rfl, rfl, rfl⟩, rfl, rfl, rfl, rfl, rfl, fun h => h⟩

theorem ClaimApart.trans {a b c : State} (h : ClaimApart a b) (g : ClaimApart b c) : ClaimApart a c := by
  obtain ⟨⟨h₁, h₂, h₃⟩, h₄, h₅, h₆, h₇, h₈, h₉⟩ := h
  obtain ⟨⟨g₁, g₂, g₃⟩, g₄, g₅, g₆, g₇, g₈, g₉⟩ := g
  exact ⟨⟨g₁.trans h₁, g₂.trans h₂, g₃.trans h₃⟩, g₄.trans h₄, g₅.trans h₅, g₆.trans h₆, g₇.trans h₇, g₈.trans h₈,
    fun h => g₉ (h₉ h)⟩

theorem standStill_apart (s : State) : ClaimApart s (standStill s) := by
  refine ⟨⟨by simp, by simp, by simp⟩, by simp, by simp, by simp, ?_, ?_, fun h => ?_⟩
  · rw [standStill_modeCtl]
  · rw [standStill_modeCtl]
  · simpa [condition, standStill_modeCtl] using h

theorem haltStop_apart (s : State) : ClaimApart s (haltStop s) := by
  unfold haltStop
  split
  · exact .refl s
  · exact standStill_apart (setpointToOpening s)
  · exact standStill_apart s

theorem claimAtTransition_auto_apart (s : State) : ClaimApart s (claimAtTransition .auto s) := by
  simp only [claimAtTransition]
  split
  · split
    · exact standStill_apart s
    · exact standStill_apart (setpointToOpening s)
    · exact .refl s
  · exact .refl s

/-- A plan that is untouched stays so as the claim is treated after it. -/
theorem PlanUntouched.apart {b c d t : State} (h : PlanUntouched c d) (hb : ClaimApart b c) (ht : ClaimApart d t) : PlanUntouched b t := by
  obtain ⟨-, h₄, h₅, h₆, h₇, -⟩ := hb
  obtain ⟨-, g₄, g₅, g₆, g₇, -⟩ := ht
  obtain ⟨k₁, k₂, k₃, k₄⟩ := h
  exact ⟨by rw [g₄, k₁, h₄], by rw [g₅, k₂, h₅], by rw [g₆, k₃, h₆], by rw [g₇, k₄, h₇]⟩

/-- A plan that is restored is so too as the claim is treated before it and after it. -/
theorem PlanRestored.apart {img : Image} {x : StormSave} {b c d t : State} (h : PlanRestored img x c d) (hb : ClaimApart b c)
    (ht : ClaimApart d t) : PlanRestored img x b t := by
  obtain ⟨⟨h₁, h₂, h₃⟩, h₄, h₅, h₆, h₇, -, h₉⟩ := hb
  obtain ⟨-, g₄, g₅, g₆, g₇, -⟩ := ht
  have hh : haltInForce c = haltInForce b := haltInForce_congr (by rw [h₂]) h₁
  obtain ⟨k₁, k₂⟩ := h
  refine ⟨by rw [g₅, k₁, h₅], ?_⟩
  simp only [PlanBadLatched, StepTaken, startNow, h₃, h₄, h₆, h₇, hh] at k₂
  intro q hq
  simp only [PlanBadLatched, StepTaken, startNow, g₄, g₆, g₇]
  obtain ⟨k₃, k₄⟩ := k₂ q hq
  exact ⟨fun hr r e => ⟨⟨(k₃ hr r e).1.1, fun hf hp => (k₃ hr r e).1.2 hf (h₉ hp)⟩, (k₃ hr r e).2⟩, k₄⟩

/-- The plan after an entry into AUTO (R58, R145, R150, R157). -/
theorem enterMode_auto_plan {s : State} {img : Image} (hi : acceptedImage s = some img) (hm : s.modeCtl.mode ≠ .auto) :
    PlanAtAutoEntry img s (enterMode .auto s) := by
  let c := claimAtTransition .auto (setMode .auto s)
  have hc : ClaimApart s c := ClaimApart.trans (b := setMode .auto s) ⟨⟨rfl, rfl, rfl⟩, rfl, rfl, rfl, rfl, rfl, fun h => h⟩
    (claimAtTransition_auto_apart _)
  have hic : acceptedImage c = some img := by rw [acceptedImage_congr hc.1.1]; exact hi
  let d := restoreSave .auto c
  let e := if haltInForce d then haltStop d else d
  have he : ClaimApart d e := by
    show ClaimApart d (if haltInForce d then haltStop d else d)
    split
    · exact haltStop_apart d
    · exact .refl d
  have hd : d.loader = c.loader ∧ d.order = c.order ∧ d.position = c.position := by simp [d]
  have hw : enterMode .auto s = if e.order.deferred then takePlanAction (e.withOrder { e.order with deferred := false }) else e := by
    simp [enterMode, takeStormSave, hm, restoreInto, enterAuto, c, d, e]
  have hre : e.loader = s.loader ∧ e.order = s.order ∧ e.position = s.position :=
    ⟨by rw [he.1.1, hd.1, hc.1.1], by rw [he.1.2.1, hd.2.1, hc.1.2.1], by rw [he.1.2.2, hd.2.2, hc.1.2.2]⟩
  have hie : acceptedImage e = some img := by rw [acceptedImage_congr hre.1]; exact hi
  have hsave : e.modeCtl.save = none := by
    rw [he.2.2.2.2.2.1]
    cases h : c.modeCtl.save with
    | none => simp [d, restoreSave, h]
    | some x => exact (restoreSave_restored hic h).2.1
  have hbad : condition .planBad s = false → condition .planBad e = false := fun hb => he.2.2.2.2.2.2 (by
    have hb := hc.2.2.2.2.2.2 hb
    cases h : c.modeCtl.save with
    | none => simpa [d, restoreSave, h] using hb
    | some x => exact (restoreSave_restored hic h).2.2 hb)
  rw [hw]
  refine ⟨?_, ?_, e, hre, hbad, fun h => ?_, fun x h => ?_, fun h => ?_, fun h => ?_⟩
  · split
    · simp
    · rename_i h; simpa using h
  · split
    · rw [(takePlanAction_modeCtl _).fields.2.2.2.2.2.2.1]; exact hsave
    · exact hsave
  · have hs : d = c := by
      have h : c.modeCtl.save = none := by rw [hc.2.2.2.2.2.1, h]
      simp [d, restoreSave, h]
    exact PlanUntouched.apart (c := c) (d := d) (by rw [hs]; exact ⟨rfl, rfl, rfl, rfl⟩) hc he
  · exact PlanRestored.apart (restoreSave_restored hic (by rw [hc.2.2.2.2.2.1, h])).1 hc he
  · rw [if_neg (by rw [hre.2.1, h]; decide)]
    exact ⟨rfl, rfl, rfl, rfl⟩
  · rw [if_pos (by rw [hre.2.1, h])]
    exact takePlanAction_taken (s := e.withOrder { e.order with deferred := false }) hie

/-! ### The claim at an entry -/

/-- A refill, a take, a restore and a plan action leave LIMITED alone (R85). -/
theorem refill_limited (s : State) : (refill s).target.limited = s.target.limited := by
  unfold refill; split <;> [rfl; (split <;> [(split <;> rfl); rfl])]

theorem takeStep_limited (s : State) : (takeStep s).target.limited = s.target.limited := by
  unfold takeStep
  split
  · rfl
  · split
    · split
      · rw [refill_limited]; rfl
      · split <;> rfl
    · rfl

theorem restoreSave_limited (m : Mode) (s : State) : (restoreSave m s).target.limited = s.target.limited := by
  cases hc : s.modeCtl.save with
  | none => simp [restoreSave, hc]
  | some c =>
    rw [restoreSave_of_save m hc]
    unfold adjustRestored
    split
    · split
      · rw [takeStep_limited, refill_limited]; rfl
      · rw [holdPlan_target]; rfl
    · rfl
    · rfl

theorem takePlanAction_limited (s : State) : (takePlanAction s).target.limited = s.target.limited := by
  unfold takePlanAction
  split
  · unfold abandonPlan; split <;> rfl
  · cases hi : acceptedImage s with
    | none => simp [startPlan, hi]
    | some img =>
      rename_i n _
      cases hd : img.directory.getD n none with
      | none => simp only [startPlan, hi, hd]; rfl
      | some a => rw [startPlan_of_entry hi hd, takeStep_limited, refill_limited]; rfl
  · rfl

/-- The claim at an entry into STORM or MAINT (R101). -/
theorem enterMode_bypassed {s : State} {img : Image} {new : Mode} (hi : acceptedImage s = some img) (hn : new = .storm ∨ new = .maint) :
    ClaimBypassed (bypassLead img new) s (enterMode new s) := by
  let c := claimAtTransition new (setMode new (takeStormSave new s))
  have hsv : (takeStormSave new s).loader = s.loader ∧ (takeStormSave new s).grant = s.grant ∧
      (takeStormSave new s).drive = s.drive ∧ (takeStormSave new s).target = s.target := by
    unfold takeStormSave; split <;> exact ⟨rfl, rfl, rfl, rfl⟩
  have hb : ClaimBypassed (bypassLead img new) s c := by
    have := claimAtTransition_bypassed (s := setMode new (takeStormSave new s)) (img := img) (new := new)
      ((acceptedImage_congr hsv.1).trans hi) hn
    have hg : (setMode new (takeStormSave new s)).grant = s.grant := hsv.2.1
    have hd : (setMode new (takeStormSave new s)).drive = s.drive := hsv.2.2.1
    have ht : (setMode new (takeStormSave new s)).target = s.target := hsv.2.2.2
    simp only [ClaimBypassed, hg, hd, ht] at this
    exact this
  have hw : (enterMode new s).grant = c.grant ∧ (enterMode new s).drive = c.drive ∧
      (enterMode new s).target.limited = c.target.limited := by
    have hh : ∀ t : State, (if s.modeCtl.mode = .auto then holdPlan t else t).grant = t.grant ∧
        (if s.modeCtl.mode = .auto then holdPlan t else t).drive = t.drive ∧
        (if s.modeCtl.mode = .auto then holdPlan t else t).target = t.target := by
      intro t; split <;> simp
    rcases hn with rfl | rfl <;> simp [enterMode, restoreInto, c, hh, restoreSave_limited]
  exact ⟨hw.2.1.trans hb.1, hw.2.2.trans hb.2.1, hw.1.trans hb.2.2⟩

/-- What a statement about a claim says does not depend on how the premise of a stop is put. -/
theorem ClaimUnbypassed.mono {p q : Prop} {b t : State} (h : p ↔ q) (hu : ClaimUnbypassed p b t) : ClaimUnbypassed q b t := by
  rw [← propext h]; exact hu

/-- The claim at an entry into AUTO, where HALT may be in force, or LOCAL (R59, R101). -/
theorem enterMode_unbypassed {s : State} {new : Mode} (hn : new = .auto ∨ new = .loc) :
    ClaimUnbypassed (new = .auto ∧ haltInForce s = true) s (enterMode new s) := by
  let c := claimAtTransition new (setMode new s)
  have hc : ClaimUnbypassed False s c := claimAtTransition_unbypassed (s := setMode new s) hn
  let d := restoreSave new (if s.modeCtl.mode = .auto then holdPlan c else c)
  have hf : d.loader = s.loader ∧ d.order = s.order ∧ d.position = s.position := by
    have : c.loader = s.loader ∧ c.order = s.order ∧ c.position = s.position := by simp [c, setMode]
    show (restoreSave new (if s.modeCtl.mode = .auto then holdPlan c else c)).loader = _ ∧ _
    split <;> simp [d, *]
  have hd : ClaimUnbypassed False s d := by
    have : d.grant = c.grant ∧ d.drive = c.drive ∧ d.target.limited = c.target.limited := by
      by_cases h : s.modeCtl.mode = .auto <;> simp [d, h, restoreSave_limited]
    exact ⟨this.2.2.trans hc.1, fun h => ⟨this.1.trans (hc.2.1 h).1, this.2.1.trans (hc.2.1 h).2⟩,
      fun h => ⟨this.1.trans (hc.2.2 h).1, this.2.1.trans (hc.2.2 h).2⟩⟩
  have hh : haltInForce d = haltInForce s := haltInForce_congr (by rw [hf.2.1]) hf.1
  rcases hn with rfl | rfl
  · have hw : enterMode .auto s = enterAuto d := by simp [enterMode, takeStormSave, restoreInto, c, d]
    have ha : ∀ t : State, (enterAuto d).grant = t.grant → (enterAuto d).drive = t.drive →
        (enterAuto d).target.limited = t.target.limited → ∀ p, ClaimUnbypassed p s t → ClaimUnbypassed p s (enterAuto d) := by
      intro t h₁ h₂ h₃ p h
      exact ⟨h₃.trans h.1, fun k => ⟨h₁.trans (h.2.1 k).1, h₂.trans (h.2.1 k).2⟩, fun k => ⟨h₁.trans (h.2.2 k).1, h₂.trans (h.2.2 k).2⟩⟩
    have he : ∀ t : State, t = (if haltInForce d then haltStop d else d) →
        (enterAuto d).grant = t.grant ∧ (enterAuto d).drive = t.drive ∧ (enterAuto d).target.limited = t.target.limited := by
      rintro t rfl
      unfold enterAuto
      generalize (if haltInForce d then haltStop d else d) = e
      simp only
      split
      · exact ⟨by rw [takePlanAction_grant]; rfl, by rw [takePlanAction_drive]; rfl, by rw [takePlanAction_limited]; rfl⟩
      · exact ⟨rfl, rfl, rfl⟩
    rw [hw]
    obtain ⟨h₁, h₂, h₃⟩ := he _ rfl
    apply ha _ h₁ h₂ h₃
    rw [hh]
    cases h : haltInForce s with
    | true => exact ClaimUnbypassed.mono (by simp) (ClaimUnbypassed.halted hd hf.2.2 hf.1)
    | false => exact ClaimUnbypassed.mono (by simp) hd
  · have hw : enterMode .loc s = d := by simp [enterMode, takeStormSave, restoreInto, c, d]
    rw [hw]
    exact ClaimUnbypassed.mono (by simp) hd

/-! ### The kinds that rise together -/

/-- A list of kinds enters a set (R160). -/
theorem hasFault_foldl_addFault (k : FaultKind) (ks : List FaultKind) (f : FaultSet) :
    hasFault k (ks.foldl (fun f k => addFault k f) f) = (hasFault k f || decide (k ∈ ks)) := by
  induction ks generalizing f with
  | nil => simp
  | cons j ks ih =>
    rw [List.foldl_cons, ih, hasFault_addFault]
    by_cases h : k = j <;> simp [h]

/-- A hold as AUTO is left (R142). -/
theorem holdPlan_held (s : State) : holdPlan s = s.withPlan (planHeld s.plan) := by
  unfold holdPlan planHeld
  split <;> rfl

/-- Kinds that are raised together (R102, R142, R160 to R162). -/
theorem raise_raised {s : State} (ks : List FaultKind) (h : s.modeCtl.active &&& s.modeCtl.latched = s.modeCtl.active) :
    KindsRaised ks s (raise ks s) := by
  have hff : (latchKinds ks s).modeCtl.firstFault =
      (match ks with
        | [] => s.modeCtl.firstFault
        | k :: _ =>
          if s.modeCtl.latched = 0 then some { kind := k, day := s.order.clockDay, ms := s.order.clockMs }
          else s.modeCtl.firstFault) := by
    by_cases hz : s.modeCtl.latched = 0
    · have ha : s.modeCtl.active = 0 := by rw [hz] at h; simpa using h.symm
      have he : enteringLatched ks s = ks := by simp [enteringLatched, becomingActive, hz, ha, hasFault]
      simp only [latchKinds, State.withModeCtl, hz, he]
      cases ks <;> simp
    · simp only [latchKinds, State.withModeCtl, if_neg hz]
      cases ks <;> rfl
  have hlat : ∀ k, hasFault k (latchKinds ks s).modeCtl.latched = (hasFault k s.modeCtl.latched || decide (k ∈ ks)) := by
    intro k
    show hasFault k ((becomingActive ks s).foldl (fun f k => addFault k f) s.modeCtl.latched) = _
    rw [hasFault_foldl_addFault]
    cases ha : hasFault k s.modeCtl.active with
    | true => simp [hasFault_of_subset h ha]
    | false => simp [becomingActive, ha]
  have hst : (enteringLatched ks s).any isStopClass = true ↔ ∃ k ∈ ks, isStopClass k = true ∧ hasFault k s.modeCtl.latched = false := by
    simp only [enteringLatched, becomingActive, List.any_eq_true, List.mem_filter, Bool.not_eq_true']
    constructor
    · rintro ⟨k, ⟨⟨h₁, -⟩, h₂⟩, h₃⟩; exact ⟨k, h₁, h₃, h₂⟩
    · rintro ⟨k, h₁, h₂, h₃⟩
      refine ⟨k, ⟨⟨h₁, ?_⟩, h₃⟩, h₂⟩
      cases ha : hasFault k s.modeCtl.active with
      | false => rfl
      | true => rw [hasFault_of_subset h ha] at h₃; simp at h₃
  have hr : raise ks s = if StopEnters ks s then enterMode .fault (latchKinds ks s) else latchKinds ks s := by
    unfold raise StopEnters
    simp only [Bool.and_eq_true, hst]
  by_cases hs : StopEnters ks s
  · rw [hr, if_pos hs]
    have hm : (enterMode .fault (latchKinds ks s)).modeCtl =
        { s.modeCtl with
          mode := .fault, relay := false, stormClear := none, active := (enterMode .fault (latchKinds ks s)).modeCtl.active
          latched := (latchKinds ks s).modeCtl.latched, firstFault := (latchKinds ks s).modeCtl.firstFault } := by
      rw [enterMode_fault]
      split <;> simp only [holdPlan_modeCtl, standStill_modeCtl] <;> rfl
    have hgd : (enterMode .fault (latchKinds ks s)).grant = claimStill s.grant ∧
        (enterMode .fault (latchKinds ks s)).drive = (if s.grant.moveState = .moving then driveAtRest s else s.drive) ∧
        (enterMode .fault (latchKinds ks s)).plan = (if s.modeCtl.mode = .auto then planHeld s.plan else s.plan) := by
      rw [enterMode_fault]
      have hmm : (latchKinds ks s).modeCtl.mode = s.modeCtl.mode := rfl
      rw [hmm]
      refine ⟨?_, ?_, ?_⟩
      · split <;> simp only [holdPlan_grant, standStill_grant] <;> rfl
      · split <;> simp only [holdPlan_drive, standStill_drive] <;> rfl
      · split <;> simp only [holdPlan_held, State.withPlan_plan, standStill_plan] <;> rfl
    refine ⟨by rw [hm]; exact hlat, by rw [hm]; exact hff, fun _ => ⟨enterMode_fault_stands _, hgd.1, hgd.2.1, hgd.2.2, ?_⟩,
      fun h => absurd hs h⟩
    exact hm.trans (by rw [hm])
  · rw [hr, if_neg hs]
    exact ⟨hlat, hff, fun h => absurd h hs, fun _ => ⟨rfl, rfl, rfl, rfl⟩⟩

/-! ### The entry into STORM, and an adoption -/

/-- A transition into STORM touches of target and Mode Controller LIMITED and the active set alone (R101). -/
theorem claimAtTransition_storm_frame (s : State) :
    (claimAtTransition .storm s).target = { s.target with limited := (claimAtTransition .storm s).target.limited } ∧
      (claimAtTransition .storm s).modeCtl = { s.modeCtl with active := (claimAtTransition .storm s).modeCtl.active } := by
  simp only [claimAtTransition]
  split
  · exact ⟨rfl, rfl⟩
  · exact ⟨by rw [standStill_target], by rw [standStill_modeCtl]⟩
  · split <;> exact ⟨rfl, rfl⟩
  · exact ⟨rfl, rfl⟩

/-- The plan and the save at an entry into STORM (R142, R149, R151, R155). -/
theorem enterMode_storm (s : State) :
    (enterMode .storm s).plan = (if s.modeCtl.mode = .auto then planHeld s.plan else s.plan) ∧
      (enterMode .storm s).tide = s.tide ∧ (enterMode .storm s).order = s.order ∧
      (enterMode .storm s).target.stepStart = s.target.stepStart ∧
      (enterMode .storm s).modeCtl =
        { s.modeCtl with
          mode := .storm, relay := true, stormClear := none, save := some (s.modeCtl.save.getD (planContext s))
          active := (enterMode .storm s).modeCtl.active } := by
  obtain ⟨ht, hm⟩ := claimAtTransition_storm_frame (setMode .storm (takeStormSave .storm s))
  have hs : takeStormSave .storm s =
      s.withModeCtl { s.modeCtl with save := some (s.modeCtl.save.getD (planContext s)) } := by
    unfold takeStormSave
    by_cases h : s.modeCtl.save = none
    · rw [if_pos ⟨rfl, h⟩, h]; rfl
    · have hg : some (s.modeCtl.save.getD (planContext s)) = s.modeCtl.save := by
        obtain ⟨c, hc⟩ := Option.ne_none_iff_exists'.mp h
        rw [hc]; rfl
      rw [if_neg (fun k => h k.2), hg]
      rfl
  have hw : enterMode .storm s =
      if s.modeCtl.mode = .auto then holdPlan (claimAtTransition .storm (setMode .storm (takeStormSave .storm s)))
      else claimAtTransition .storm (setMode .storm (takeStormSave .storm s)) := by
    simp [enterMode, restoreInto]
  rw [hs] at hw ht hm
  rw [hw]
  refine ⟨?_, ?_, ?_, ?_, ?_⟩
  · split <;> simp [holdPlan_held, setMode]
  · split <;> simp [setMode]
  · split <;> simp [setMode]
  · split <;> simp only [holdPlan_target] <;> rw [ht] <;> rfl
  · split <;> simp only [holdPlan_modeCtl] <;> rw [hm] <;> rfl

/-- The storm conditions of an adoption take their values (R149, R154, R156): `x` is the station with them, before an entry into STORM. -/
theorem setConditions_cases (order input level : Bool) (s : State) :
    ∃ x, x = { s with
          modeCtl :=
            { s.modeCtl with
              condOrder := order, condInput := input, condLevel := level
              stormClear :=
                if order || input || level then none
                else if stormDemand s = true ∧ s.modeCtl.mode = .storm then some 0 else s.modeCtl.stormClear } } ∧
      setConditions order input level s =
        (if (order || input || level) = true ∧ (s.modeCtl.mode = .auto ∨ s.modeCtl.mode = .loc) then enterMode .storm x else x) := by
  exact ⟨_, rfl, rfl⟩

/-- A take after a take does nothing more (R132). -/
theorem takeStep_takeStep (s : State) : takeStep (takeStep s) = takeStep s := by
  by_cases h : s.plan.state = .running ∧ s.plan.current = none ∧ haltInForce s = false
  · cases hi : acceptedImage s with
    | none => simp [takeStep, hi]
    | some img =>
      cases hq : s.plan.queue with
      | nil =>
        have hs : takeStep s = if s.plan.interp.ended then endPlan .ended s else s := by simp [takeStep, hi, h, hq]
        rw [hs]
        split
        · exact takeStep_none (.inl (by simp [endPlan, State.withPlan, State.withTarget]))
        · rename_i he; rw [hs, if_neg he]
      | cons i rest =>
        have hs : takeStep s = refill (beginStep img i rest s) := by simp [takeStep, hi, h, hq]
        obtain ⟨hsome, hnone⟩ := refill_cases (s := beginStep img i rest s) (img := img) hi h.1
        rw [hs]
        cases hl : refillLoop img refillFuel (beginStep img i rest s).plan with
        | none => rw [hnone hl]; exact takeStep_none (.inl (by rw [(failPlan_cases _).1]; simp))
        | some p =>
          rw [hsome p hl]
          refine takeStep_none (.inr (.inl ?_))
          show p.current ≠ none
          rw [refillLoop_frame _ hl]
          simp [beginStep, State.withPlan, State.withTarget]
  · have : takeStep s = s := by
      apply takeStep_none
      by_cases h₁ : s.plan.state = .running
      · by_cases h₂ : s.plan.current = none
        · exact .inr (.inr (Bool.eq_true_of_not_eq_false fun h₃ => h ⟨h₁, h₂, h₃⟩))
        · exact .inr (.inl h₂)
      · exact .inl h₁
    rw [this, this]

/-- A take after a plan start does nothing more (R132, R140). -/
theorem takeStep_startPlan {s : State} {img : Image} (n : Nat) (hi : acceptedImage s = some img) :
    takeStep (startPlan n s) = startPlan n s := by
  cases hd : img.directory.getD n none with
  | none =>
    apply takeStep_none
    left
    unfold startPlan
    simp only [hi, hd]
    rw [(failPlan_cases _).1]
    simp
  | some a => rw [startPlan_of_entry hi hd, takeStep_takeStep]

/-- What HALT makes of the plan at an adoption in AUTO: it stops, and nothing is taken. -/
theorem PlanAdopted.halted {img : Image} {o : Order} {b r t : State} (h : PlanAdopted img o b r) (ha : ClaimApart r t) :
    PlanAdopted img o b t := by
  obtain ⟨-, h₁, h₂, h₃, h₄, -⟩ := ha
  simp only [PlanAdopted, PlanUntouched, PlanBadLatched, h₁, h₂, h₃, h₄]
  exact h

/-- The plan action with the take that follows it, where HALT is not in force (R58, R132, R144). -/
theorem takeStep_takePlanAction {s : State} {img : Image} {o : Order} (hi : acceptedImage s = some img)
    (ho : s.order.adopted = some o) (hh : haltInForce s = false) : PlanAdopted img o s (takeStep (takePlanAction s)) := by
  have happ : orderApplies s = o.mask.getLsbD s.loader.strap := by simp [orderApplies, ho]
  obtain ⟨h₁, h₂⟩ := (takePlanAction_taken hi).2 o ho
  have hab : PlanLive (abandonPlan s).plan.state → False := by
    unfold abandonPlan
    split
    · simp [endPlan, State.withPlan, State.withTarget, PlanLive]
    · assumption
  refine ⟨fun h => ?_, fun n hm hp => ⟨fun hl hn hr => ?_, fun h => ?_⟩⟩
  · have ht : takePlanAction s = abandonPlan s := by
      unfold takePlanAction planActionOf
      simp only [ho, happ]
      rcases h with h | h <;> simp [h]
    rw [takeStep_none (.inl fun hr => hab (.inl (ht ▸ hr)))]
    exact h₁ h
  · have ht : takePlanAction s = s := by
      unfold takePlanAction planActionOf
      simp [ho, happ, hm, hp, hn, hr]
      rw [if_pos hl]
    rw [ht]
    refine ⟨fun h => ?_, fun hr hc _ => ?_⟩
    · have hn : takeStep s = s := by
        apply takeStep_none
        rcases h with h | h | h
        · exact .inl (by rw [h]; decide)
        · exact .inr (.inl h)
        · simp [haltInForce, ho, h, hm] at hh
      rw [hn]; exact ⟨rfl, rfl, rfl, rfl⟩
    · obtain ⟨k₁, k₂, -⟩ := takeStep_taken hi hr hc hh
      exact ⟨k₁, takeStep_tide s, k₂⟩
  · have ht : takePlanAction s = startPlan n s := by
      unfold takePlanAction planActionOf
      have : ¬ ((s.plan.state = .running ∨ s.plan.state = .held) ∧ s.plan.number = some n ∧ o.restartPlan = false) := by
        rintro ⟨k₁, k₂, k₃⟩
        rcases h with h | h | h
        · exact h k₁
        · exact h k₂
        · simp [k₃] at h
      simp only [ho, happ, hm, hp, if_true, if_neg this]
    have := (h₂ n hm hp).2 h
    rw [ht] at this ⊢
    rw [takeStep_startPlan n hi]
    exact this

/-- A plan action at an adoption in AUTO, with what HALT does after it (R58, R59, R132, R144). -/
theorem haltAtAdoption_adopted {s : State} {img : Image} {o : Order} (hi : acceptedImage s = some img) (hm : s.modeCtl.mode = .auto)
    (ho : s.order.adopted = some o) : PlanAdopted img o s (haltAtAdoption (planActionAtAdoption s)) := by
  have hq : planActionAtAdoption s = takePlanAction s := by simp [planActionAtAdoption, hm]
  have hqm : (takePlanAction s).modeCtl.mode = .auto := ((takePlanAction_modeCtl s).fields.1).trans hm
  have hqh : haltInForce (takePlanAction s) = haltInForce s := haltInForce_congr (by simp) (by simp)
  rw [hq]
  unfold haltAtAdoption
  rw [hqm, hqh]
  simp only [if_true]
  cases hh : haltInForce s with
  | false => exact takeStep_takePlanAction hi ho hh
  | true =>
    obtain ⟨h₁, h₂⟩ := (takePlanAction_taken hi).2 o ho
    have hoh : o.halt = true := by simp [haltInForce, ho] at hh; exact hh.1
    refine PlanAdopted.halted (r := takePlanAction s)
      ⟨h₁, fun n hm hp => ⟨fun hl hn hr => ⟨fun _ => (h₂ n hm hp).1 hl hn hr, fun _ _ h => ?_⟩, (h₂ n hm hp).2⟩⟩ (haltStop_apart _)
    simp [hoh] at h

/-- HALT touches of the Mode Controller the active set alone (R59). -/
theorem haltStop_modeCtl (s : State) : (haltStop s).modeCtl = { s.modeCtl with active := (haltStop s).modeCtl.active } := by
  unfold haltStop
  split
  · rfl
  · rw [standStill_modeCtl]; rfl
  · rw [standStill_modeCtl]

/-- What the plan action and HALT may touch at an adoption, beside plan, tide and step start opening (R58, R59, R130). -/
theorem actAtAdoption_frame (s : State) :
    let t := haltAtAdoption (planActionAtAdoption s)
    (s.modeCtl.mode = .auto → haltInForce s = true → t.grant = (haltStop s).grant ∧ t.drive = (haltStop s).drive) ∧
      (s.modeCtl.mode ≠ .auto ∨ haltInForce s = false → t.grant = s.grant ∧ t.drive = s.drive) ∧
      t.target.limited = s.target.limited ∧
      t.order.deferred = (if s.modeCtl.mode = .auto then s.order.deferred else true) ∧ t.loader = s.loader ∧
      t.modeCtl =
        { s.modeCtl with active := t.modeCtl.active, latched := t.modeCtl.latched, firstFault := t.modeCtl.firstFault } := by
  by_cases hm : s.modeCtl.mode = .auto
  · have hq : planActionAtAdoption s = takePlanAction s := by simp [planActionAtAdoption, hm]
    have hp := takePlanAction_modeCtl s
    have hqm : (takePlanAction s).modeCtl.mode = .auto := hp.fields.1.trans hm
    have hqh : haltInForce (takePlanAction s) = haltInForce s := haltInForce_congr (by simp) (by simp)
    have hd : ∀ q : State, q.grant = s.grant → q.drive = s.drive → q.position = s.position → q.loader = s.loader →
        (haltStop q).grant = (haltStop s).grant ∧ (haltStop q).drive = (haltStop s).drive := by
      intro q h₁ h₂ h₃ h₄
      rw [(haltStop_claim q).1, (haltStop_claim q).2, (haltStop_claim s).1, (haltStop_claim s).2]
      simp only [driveHalted, h₁, h₂, h₃, nullCode_congr _ h₄, and_self]
    rw [hq]
    unfold haltAtAdoption
    rw [if_pos hqm, hqh]
    cases hh : haltInForce s with
    | true =>
      simp only [if_true]
      refine ⟨fun _ _ => hd _ (by simp) (by simp) (by simp) (by simp), fun h => by simp [hm] at h, ?_, by simp [hm], by simp, ?_⟩
      · rw [haltStop_target, takePlanAction_limited]
      · rw [haltStop_modeCtl, hp.1]
    | false =>
      simp only [Bool.false_eq_true, if_false]
      refine ⟨fun _ h => by simp at h, fun _ => by simp, ?_, by simp [hm], by simp, ?_⟩
      · rw [takeStep_limited, takePlanAction_limited]
      · exact (hp.trans (takeStep_modeCtl _)).1
  · have hq : haltAtAdoption (planActionAtAdoption s) = s.withOrder { s.order with deferred := true } := by
      simp [haltAtAdoption, planActionAtAdoption, hm]
    simp only [hq]
    exact ⟨fun h => absurd h hm, fun _ => ⟨rfl, rfl⟩, rfl, by simp [hm], rfl, rfl⟩

/-- What an adoption does (R56, R58 to R60, R149, R154 to R156). -/
theorem adopt_acts {s : State} {img : Image} (o : Order) (hi : acceptedImage s = some img) :
    AdoptionActs img o { s with order := { s.order with adopted := some o } } (adopt o s) := by
  let b : State := setMark { s with order := { s.order with adopted := some o } }
  suffices h : AdoptionActs img o b (adopt o s) from h
  let a := haltAtAdoption (planActionAtAdoption b)
  obtain ⟨hh, hn, hl, hdef, hld, hmc⟩ := actAtAdoption_frame b
  obtain ⟨x, hx, hc⟩ := setConditions_cases o.storm a.modeCtl.condInput a.modeCtl.condLevel a
  have ht : adopt o s = setConditions o.storm a.modeCtl.condInput a.modeCtl.condLevel a := rfl
  rw [hc] at ht
  have hia : acceptedImage x = some img := by rw [acceptedImage_congr (s := b) (by rw [hx]; exact hld)]; exact hi
  have hplan : (b.modeCtl.mode = .auto → PlanAdopted img o b a) ∧ (b.modeCtl.mode ≠ .auto → PlanUntouched b a) := by
    refine ⟨fun h => haltAtAdoption_adopted hi h rfl, fun h => ?_⟩
    have hq : a = b.withOrder { b.order with deferred := true } := by simp [a, haltAtAdoption, planActionAtAdoption, h]
    rw [hq]; exact ⟨rfl, rfl, rfl, rfl⟩
  have hf : a.modeCtl.mode = b.modeCtl.mode ∧ a.modeCtl.condOrder = b.modeCtl.condOrder ∧ a.modeCtl.condInput = b.modeCtl.condInput ∧
      a.modeCtl.condLevel = b.modeCtl.condLevel ∧ a.modeCtl.stormClear = b.modeCtl.stormClear ∧ a.modeCtl.save = b.modeCtl.save ∧
      a.modeCtl.relay = b.modeCtl.relay := by
    have hmc : a.modeCtl = _ := hmc
    refine ⟨?_, ?_, ?_, ?_, ?_, ?_, ?_⟩ <;> rw [hmc]
  obtain ⟨f₁, f₂, f₃, f₄, f₅, f₆, f₇⟩ := hf
  have hda : stormDemand a = stormDemand b := by simp only [stormDemand, f₂, f₃, f₄]
  have hxg : x.grant = a.grant ∧ x.drive = a.drive ∧ x.target = a.target ∧ x.plan = a.plan ∧ x.tide = a.tide ∧ x.order = a.order ∧
      x.modeCtl.latched = a.modeCtl.latched ∧ x.modeCtl.mode = b.modeCtl.mode ∧ x.modeCtl.save = b.modeCtl.save := by
    rw [hx]; exact ⟨rfl, rfl, rfl, rfl, rfl, rfl, rfl, f₁, f₆⟩
  obtain ⟨g₁, g₂, g₃, g₄, g₅, g₆, g₇, g₈, g₉⟩ := hxg
  by_cases hE : (o.storm || a.modeCtl.condInput || a.modeCtl.condLevel) = true ∧ (a.modeCtl.mode = .auto ∨ a.modeCtl.mode = .loc)
  · rw [if_pos hE] at ht
    obtain ⟨e₁, e₂, e₃, e₄, e₅⟩ := enterMode_storm x
    have hC := enterMode_bypassed (s := x) hia (.inl rfl)
    rw [f₁] at hE
    have hM : b.modeCtl.mode ≠ .storm := by rcases hE.2 with h | h <;> rw [h] <;> decide
    have hd : stormDemand (enterMode .storm x) = true := by unfold stormDemand; rw [e₅, hx]; exact hE.1
    rw [ht]
    have hne : (enterMode .storm x).modeCtl.mode ≠ b.modeCtl.mode := by rw [e₅]; exact hM.symm
    refine ⟨by rw [e₃, g₆]; exact hdef, by rw [e₅, hx], by rw [e₅, hx]; exact f₃, by rw [e₅, hx]; exact f₄, ?_, ?_, ?_,
      ⟨a, hplan.1, hplan.2, by rw [e₂, g₅], by rw [e₄, g₃], by rw [e₅]; exact g₇, fun h => absurd h hne, fun _ => ⟨?_, ?_⟩⟩,
      fun h₁ h₂ => ?_, fun h => ⟨fun h => absurd h hne, fun _ => ?_⟩⟩
    · rw [if_pos ⟨hd, hE.2⟩, e₅]
    · rw [if_neg hne, e₅]
    · rw [if_pos hd, e₅]
    · rw [e₁, g₈, g₄]
    · rw [e₅]; simp only [g₉, planContext, g₄, g₅]
    · obtain ⟨k₁, k₂⟩ := hh h₁ h₂
      have hq := haltStop_claim b
      have hs : x.grant.moveState = .still := by
        rw [g₁]
        show (haltAtAdoption (planActionAtAdoption b)).grant.moveState = _
        rw [k₁, haltStop_still]
      obtain ⟨c₁, c₂, c₃⟩ := hC
      simp only [hs, reduceCtorEq, false_and, if_false] at c₂ c₃
      exact ⟨by rw [c₂, g₃]; exact hl, by rw [c₃, g₁]; exact k₁.trans hq.1, by rw [c₁, g₂]; exact k₂.trans hq.2⟩
    · obtain ⟨k₁, k₂⟩ := hn h
      have k₁' : x.grant = b.grant := g₁.trans k₁
      obtain ⟨c₁, c₂, c₃⟩ := hC
      have hlx : x.target.limited = b.target.limited := by rw [g₃]; exact hl
      rw [k₁', hlx] at c₂
      rw [k₁'] at c₃
      exact ⟨c₁.trans (g₂.trans k₂), c₂, c₃⟩
  · rw [if_neg hE] at ht
    rw [ht]
    have hdx : stormDemand x = (o.storm || a.modeCtl.condInput || a.modeCtl.condLevel) := by rw [hx]; rfl
    refine ⟨by rw [g₆]; exact hdef, by rw [hx], by rw [hx]; exact f₃, by rw [hx]; exact f₄, ?_, ?_, ?_,
      ⟨a, hplan.1, hplan.2, g₅, by rw [g₃], g₇, ?_, ?_⟩, ?_, ?_⟩
    · rw [hdx, if_neg (by rw [f₁] at hE; exact hE)]; exact g₈
    · rw [if_pos g₈, hx]; exact f₇
    · rw [hdx, hx]; simp only [hda, f₁, f₅]
    · exact fun _ => ⟨g₄, g₉⟩
    · exact fun h => absurd g₈ h
    · intro h₁ h₂
      obtain ⟨k₁, k₂⟩ := hh h₁ h₂
      have hq := haltStop_claim b
      exact ⟨by rw [g₃]; exact hl, by rw [g₁]; exact k₁.trans hq.1, by rw [g₂]; exact k₂.trans hq.2⟩
    · intro h
      obtain ⟨k₁, k₂⟩ := hn h
      exact ⟨fun _ => ⟨g₁.trans k₁, g₂.trans k₂, by rw [g₃]; exact hl⟩, fun h => absurd g₈ h⟩

end Sys2Proof.Machine
end

