-- ==== Sys2Proof/WellFormed.lean ====
section
/-! DEFINITION. Which events are well formed: the operands the spec admits for a row. The meanings are total: they take any operands. -/

namespace Sys2Proof

/-- The order of a tick's evaluations names every block once (R1, log 5). -/
def orderWellFormed (o : List Block) : Bool := o.length == 6 && Block.all.all (fun b => o.contains b)

/-- The SOURCE of a valid frame: a station 0..15 or a console 16..23 (R168, R174). -/
def sourceWellFormed (source : Byte) : Bool := source.toNat ≤ 23

/-- A frame of more than its fixed part and no more than 64 payload bytes (R168). -/
def frameLengthWellFormed (bytes : List Byte) : Bool := 5 ≤ bytes.length && bytes.length ≤ 69

/-- A bit of the longest frame a station sends: a STATE of 55 payload bytes has 60 characters of 10 bits (R167, R168, R187). -/
def bitWellFormed (bit : Nat) : Bool := bit < 600

/-- The event is well formed. -/
def wellFormed (i : Instr) : Bool :=
  match i with
  | .powerOnReset _ => true
  | .resetEnd _ => true
  | .imageReadFailed => true
  | .imageReadRetry => true
  | .imageReadComplete bytes inputs _ _ => bytes.length == 2048 && orderWellFormed inputs.order
  | .controlTick inputs => orderWellFormed inputs.order
  | .encoderReply _ _ _ => true
  | .replyWindow _ => true
  | .encFault _ => true
  | .encRecovery _ => true
  | .levelSample _ _ => true
  | .levelFault _ => true
  | .levelRecovery _ => true
  | .tideQualified => true
  | .peerAgeing => true
  | .orderFrame source payload => sourceWellFormed source && payload.length == 17
  | .resume source _ _ _ => sourceWellFormed source
  | .finishAtHold source _ _ _ => sourceWellFormed source
  | .tideEvent source _ _ _ => sourceWellFormed source
  | .abandon source _ _ _ => sourceWellFormed source
  | .clearFault source _ _ _ => sourceWellFormed source
  | .clearCounts source _ _ _ => sourceWellFormed source
  | .restart source _ _ _ _ => sourceWellFormed source
  | .unknownCommand source _ code _ _ => sourceWellFormed source && !(1 ≤ code.toNat && code.toNat ≤ 7)
  | .stateFrame source payload => sourceWellFormed source && payload.length == 55
  | .tideFrame source payload => sourceWellFormed source && payload.length == 10
  | .frameDropped what =>
    match what with
    | .stopBitDominant => true
    | .cutOff => true
    | .lengthOver => true
    | .arrived bytes => frameLengthWellFormed bytes
  | .duplicateClear => true
  | .alone => true
  | .periodicReport => true
  | .gapEnd => true
  | .sendStart => true
  | .lostArbitration bit => bitWellFormed bit
  | .lineNotFollowing bit => bitWellFormed bit
  | .frameComplete => true
  | .txBlockedTimer => true
  | .dominantRun => true
  | .announceWait => true
  | .warnLead _ => true
  | .pumpWait => true
  | .valveMismatch _ => true
  | .stall => true
  | .stormClearTime => true
  | .dwellExpired => true
  | .weirClockDay => true
  | .lineIdle => true

end Sys2Proof
end

