-- ==== Sys2Proof/Tests/Slice0.lean ====
section
/-! SUPPORT. The model's own tests: ill-formed events, the spec's worked examples, one step of some events, and for every statement with
hypotheses a state and operands that meet them. Expected results come from the worked examples and tables of spec/, as each comment says. -/

-- One declaration after another: with the large stacks of the check, a thread for each theorem of the package exceeds its memory limit.
set_option Elab.async false

namespace Sys2Proof.Tests

open Sys2Proof Sys2Proof.Machine Sys2Proof.Safety

/-! ### A test station -/

/-- The image of the test station up to its last step record that is not EMPTY, written out from the offsets of R184 and R188. -/
def imageContent : List Byte :=
  [0x06] ++
  -- parameters, section 11.3
  [0x00, 0x00, 0x0F, 0xA0, 0x00, 0x00, 0x01, 0xF4] ++  -- OPEN_MAX, REPORT_PERIOD
  [0x00, 0x00, 0x00, 0x14, 0x00, 0x00, 0x00, 0xFA] ++  -- DEADBAND, ANNOUNCE_WAIT
  [0x00, 0x00, 0x00, 0x02, 0x00, 0x00, 0x00, 0x05] ++  -- MOVE_LIMIT, WARN_LEAD
  [0x00, 0x00, 0x00, 0x08, 0x00, 0x00, 0x01, 0x90] ++  -- PUMP_WAIT, SPREAD
  [0x00, 0x00, 0x00, 0x32, 0x00, 0x00, 0x0C, 0x75] ++  -- H_MIN, G
  [0x00, 0x00, 0x00, 0x14, 0x00, 0x00, 0x00, 0x0A] ++  -- KP, KS
  [0x00, 0x00, 0x01, 0x90, 0x00, 0x00, 0x00, 0x0A] ++  -- VALVE_TOL, STALL_TIME
  [0x00, 0x00, 0x00, 0x28, 0x00, 0x00, 0x01, 0x2C] ++  -- SKEW_TRIP, DEFAULT_SPEED
  [0x00, 0x00, 0x00, 0xC8, 0x00, 0x00, 0x00, 0x64] ++  -- LOCAL_SPEED, MAINT_SPEED
  [0x00, 0x00, 0x02, 0x58, 0x00, 0x00, 0x0B, 0xB8] ++  -- STORM_SPEED, STORM_LEVEL
  [0x00, 0x00, 0x03, 0x84, 0xFF, 0xFF, 0xEC, 0x78] ++  -- STORM_CLEAR_TIME, LVL_OFFSET
  [0x00, 0x00, 0x4E, 0x20, 0x00, 0x00, 0x00, 0x96] ++  -- LVL_SPAN, HEAD_OPEN
  [0x00, 0x00, 0x00, 0x32, 0x00, 0x00, 0x00, 0x0A] ++  -- HEAD_CLOSE, TIDE_QUALIFY
  -- zeros, null trims
  [0x01, 0x36, 0x00, 0x91, 0xFF, 0xF4, 0x00, 0x07] ++
  -- geometry
  [0x00, 0x00, 0x01, 0x68, 0x02, 0xD0, 0x04, 0x38, 0x05, 0xA0, 0x07, 0x08, 0x08, 0xC0, 0x0A, 0x28, 0x0B, 0x90] ++
  [0x0C, 0xF8, 0x0E, 0x60, 0x0F, 0xC8, 0x11, 0x30, 0x12, 0x98, 0x14, 0x00, 0x15, 0x68, 0x16, 0xD0] ++
  -- layout: stations 1 to 4 present
  [0x00, 0x00, 0x00, 0x01, 0xFF, 0x02, 0x01, 0x01, 0x03, 0x01, 0x02, 0x04, 0x01, 0x03, 0xFF] ++ List.replicate 33 0x00 ++
  -- authorities, directory
  [0x00, 0x02, 0x03, 0x01, 0x00, 0x00, 0x00, 0x00] ++
  [0xFF, 0xFF, 0xFF, 0x0A, 0xFF, 0xFF, 0xFF, 0x32] ++ List.replicate 8 0xFF ++
  -- codes 10 to 15, 40, 41, 50, 51
  List.replicate 40 0x00 ++
  [0x01, 0x14, 0x14, 0x01, 0x02, 0x03, 0x00, 0x00, 0x01, 0x15, 0x17, 0x01] ++
  [0x04, 0x00, 0x00, 0x00, 0x05, 0x28, 0x00, 0x00, 0x07, 0x00, 0x00, 0x00] ++ List.replicate 96 0x00 ++
  [0x01, 0x18, 0x18, 0x01, 0x06, 0x00, 0x00, 0x00] ++ List.replicate 32 0x00 ++
  [0x03, 0x00, 0x00, 0x00, 0x04, 0x00, 0x00, 0x00] ++ List.replicate 48 0x00 ++
  -- steps 20 to 24
  List.replicate 160 0x00 ++
  [0x05, 0x00, 0x00, 0x00, 0x00, 0x00, 0x00, 0x01, 0x02, 0x00, 0x32, 0x00, 0x96, 0x01, 0x2C, 0x00] ++
  [0x01, 0x00, 0x00, 0x00, 0x00, 0x07, 0x08, 0x02, 0x02, 0x00, 0x46, 0x00, 0x00, 0x02, 0x58, 0x00] ++
  [0x05, 0x00, 0x00, 0x00, 0x00, 0x00, 0x00, 0x05]

/-- The whole image: EMPTY step records, what is not used, and the check word. -/
def imageBytes : List Byte :=
  imageContent ++ List.replicate 1371 0 ++ [0xD6, 0x47]

/-- What the image holds, read from the tables by hand: the gate of the worked examples of chapters 1, 5 and 7, plans 3 and 7 of chapter 8. -/
def testImage : Image where
  params :=
    { openMax := 4000, reportPeriod := 500, deadband := 20, announceWait := 250, moveLimit := 2, warnLead := 5, pumpWait := 8
      spread := 400, hMin := 50, gateConstant := 3189, kp := 20, ks := 10, valveTol := 400, stallTime := 10, skewTrip := 40
      defaultSpeed := 300, localSpeed := 200, maintSpeed := 100, stormSpeed := 600, stormLevel := 3000, stormClearTime := 900
      lvlOffset := -5000, lvlSpan := 20000, headOpen := 150, headClose := 50, tideQualify := 10 }
  encZeroL := 310
  encZeroR := 145
  nullL := -12
  nullR := 7
  geometry := [0, 360, 720, 1080, 1440, 1800, 2240, 2600, 2960, 3320, 3680, 4040, 4400, 4760, 5120, 5480, 5840]
  layout :=
    [{ present := false, left := some 0, right := some 0 }, { present := true, left := none, right := some 2 },
      { present := true, left := some 1, right := some 3 }, { present := true, left := some 2, right := some 4 },
      { present := true, left := some 3, right := none }] ++
      List.replicate 11 { present := false, left := some 0, right := some 0 }
  authorities := [0, 2, 3, 1, 0, 0, 0, 0]
  directory := [none, none, none, some 10, none, none, none, some 50] ++ List.replicate 8 none
  codes :=
    List.replicate 10 ⟨0, 0, 0, 0⟩ ++
      [⟨1, 20, 20, 1⟩, ⟨2, 3, 0, 0⟩, ⟨1, 21, 23, 1⟩, ⟨4, 0, 0, 0⟩, ⟨5, 40, 0, 0⟩, ⟨7, 0, 0, 0⟩] ++
      List.replicate 24 ⟨0, 0, 0, 0⟩ ++ [⟨1, 24, 24, 1⟩, ⟨6, 0, 0, 0⟩] ++ List.replicate 8 ⟨0, 0, 0, 0⟩ ++
      [⟨3, 0, 0, 0⟩, ⟨4, 0, 0, 0⟩] ++ List.replicate 12 ⟨0, 0, 0, 0⟩
  steps :=
    List.replicate 20 ⟨.empty, 0, 0, 0, false, false, false⟩ ++
      [⟨.closed, 0, 0, 0, true, false, false⟩, ⟨.orderPct, 50, 150, 300, false, false, false⟩,
        ⟨.order, 0, 0, 1800, false, true, false⟩, ⟨.orderPct, 70, 0, 600, false, false, false⟩,
        ⟨.closed, 0, 0, 0, true, false, true⟩] ++
      List.replicate 103 ⟨.empty, 0, 0, 0, false, false, false⟩

/-- Station 2 at the end of its reset, at the start of the fourth attempt at its image read. -/
def reading : State :=
  let s := State.initial .pin false 2
  s.withLoader { s.loader with attempts := 3 }

/-- Station 2 serving in AUTO, at rest. -/
def served : State :=
  let s := State.initial .power false 2
  let t := s.withLoader { s.loader with image := .accepted testImage, attempts := 1, reading := false }
  t.withModeCtl { t.modeCtl with mode := .auto, relay := true }

/-- Station 2 in a mode. -/
def inMode (m : Mode) : State := served.withModeCtl { served.modeCtl with mode := m, relay := relayIn m }

/-- Station 2 with its position established at an opening. -/
def openAt (mm : Nat) (s : State) : State :=
  s.withPosition
    { s.position with
      left := { s.position.left with lastCount := some 22810 }, right := { s.position.right with lastCount := some 22445 }
      opening := mm, established := true }

/-- An order that applies to every station. -/
def testOrder : Order :=
  { number := 812, origin := 17, kind := .discharge, value := 2003, plan := none, mask := 0xFFFF, halt := false, storm := false,
    tideLock := false, restartPlan := false }

/-- A station with this order adopted. -/
def ordered (o : Order) (s : State) : State := s.withOrder { s.order with adopted := some o }

/-- A station whose plan is in a state, with a step. -/
def planned (st : PlanState) (step : Option Nat) (s : State) : State :=
  s.withPlan { s.plan with state := st, number := some 3, current := step }

/-- A station with its claim in a move state. -/
def claiming (m : MoveState) (k : MoveKind) (s : State) : State :=
  s.withGrant
    { claimIn m s.grant with
      moveKind := k, ticket := if k = .granted then 1 else 0, announceTimer := if k = .granted then some 0 else none
      warnTimer := if m = .warn then some 0 else none }

/-- A station with this row filled. -/
def hearing (n : Nat) (f : StateFrame) (s : State) : State := refreshRow n f s

/-- A peer's STATE. -/
def peerFrame : StateFrame := { buildState served with orderNumber := 0, orderOrigin := 0, orderKind := 0 }

/-- The payload of an ORDER: number, kind, value, plan, mask, flags, weir time (R186). -/
def orderPayload (number kind value plan mask flags day ms : Nat) : List Byte :=
  bytes4 number ++ [byteOf kind] ++ bytes2 value ++ [byteOf plan] ++ bytes2 mask ++ [byteOf flags] ++ bytes2 day ++ bytes4 ms

/-- What a tick samples at a quiet gate. -/
def quietInputs : TickInputs :=
  { upperSwitch := false, lowerSwitch := false, maintKey := false, localKey := false, stormInput := false, raise := false
    lower := false, pumpReady := true, readbackL := 0, readbackR := 0, order := Block.all }

/-- The state after an event, from a state with nothing else waiting. -/
def after (i : Instr) (s : State) : State :=
  match step (s.withPending [i]) with
  | .next t => t
  | _ => s

/-! ### WellFormed refuses what it should -/

theorem test_order_wrong : wellFormed (.controlTick { quietInputs with order := [.mode, .mode, .mode, .mode, .mode, .mode] }) = false := by
  decide
theorem test_order_short : wellFormed (.controlTick { quietInputs with order := [.position, .mode] }) = false := by decide
theorem test_image_short : wellFormed (.imageReadComplete [0] quietInputs 0 0) = false := by decide
theorem test_image_tick_order :
    wellFormed (.imageReadComplete (List.replicate 2048 0) { quietInputs with order := [] } 0 0) = false := by decide +kernel
theorem test_order_source : wellFormed (.orderFrame 24 (orderPayload 1 1 0 255 0 0 0 0)) = false := by decide
theorem test_order_length : wellFormed (.orderFrame 16 [0, 0]) = false := by decide
theorem test_resume_source : wellFormed (.resume 24 2 0 0) = false := by decide
theorem test_finish_source : wellFormed (.finishAtHold 255 2 0 0) = false := by decide
theorem test_tide_event_source : wellFormed (.tideEvent 24 2 1 0) = false := by decide
theorem test_abandon_source : wellFormed (.abandon 24 2 0 0) = false := by decide
theorem test_clear_fault_source : wellFormed (.clearFault 24 2 0 0) = false := by decide
theorem test_clear_counts_source : wellFormed (.clearCounts 24 2 0 0) = false := by decide
theorem test_restart_source : wellFormed (.restart 24 2 0 0 0) = false := by decide
theorem test_unknown_source : wellFormed (.unknownCommand 24 2 0 0 0) = false := by decide
theorem test_unknown_code_known : wellFormed (.unknownCommand 16 2 7 0 0) = false ∧ wellFormed (.unknownCommand 16 2 8 0 0) = true := by
  decide
theorem test_state_source : wellFormed (.stateFrame 24 (List.replicate 55 0)) = false := by decide
theorem test_state_length : wellFormed (.stateFrame 1 (List.replicate 54 0)) = false := by decide
theorem test_tide_source : wellFormed (.tideFrame 24 (List.replicate 10 0)) = false := by decide
theorem test_tide_length : wellFormed (.tideFrame 1 (List.replicate 11 0)) = false := by decide
theorem test_frame_short : wellFormed (.frameDropped (.arrived [0, 0, 0, 0])) = false := by decide
theorem test_frame_long : wellFormed (.frameDropped (.arrived (List.replicate 70 0))) = false := by decide +kernel
theorem test_lost_bit : wellFormed (.lostArbitration 600) = false ∧ wellFormed (.lostArbitration 599) = true := by decide
theorem test_not_following_bit : wellFormed (.lineNotFollowing 600) = false := by decide

/-! ### The spec's worked examples -/

/-- The check word over 31h to 39h is 29B1h (R169). -/
theorem test_check_word : checkWord [0x31, 0x32, 0x33, 0x34, 0x35, 0x36, 0x37, 0x38, 0x39] = 0x29B1#16 := by decide +kernel

/-- The check register over a run of bytes, written so that each byte's register is a numeral before the next byte is taken. -/
def checkRun : List Byte → BitVec 16 → BitVec 16
  | [], r => r
  | b :: bs, r => if r.toNat = 65536 then 0 else checkRun bs (checkByte r b)

/-- It is the check register. -/
theorem checkRun_eq (bs : List Byte) (r : BitVec 16) : bs.foldl checkByte r = checkRun bs r := by
  induction bs generalizing r with
  | nil => rfl
  | cons b bs ih =>
    have : r.toNat ≠ 65536 := by have := r.isLt; omega
    simp [checkRun, this, ih]

/-- The check register after the image's content, and after the zeros that follow (R182). -/
theorem test_image_check_content : imageContent.foldl checkByte 0xFFFF#16 = 0x4BFE#16 := by rw [checkRun_eq]; decide +kernel
theorem test_image_check_zeros : (List.replicate 1371 (0 : Byte)).foldl checkByte 0x4BFE#16 = 0xD647#16 := by
  rw [checkRun_eq]; decide +kernel

theorem test_image_length : (imageContent ++ List.replicate 1371 (0 : Byte)).length = 2046 := by
  simp only [List.length_append, List.length_replicate]; decide +kernel

/-- The image's check word is good (R182). -/
theorem test_image_check : imageCheckWordGood imageBytes = true := by
  unfold imageCheckWordGood imageBytes checkWord
  rw [List.take_left' test_image_length, List.drop_left' test_image_length, List.foldl_append, test_image_check_content,
    test_image_check_zeros]
  decide

/-- The image passes every other check (R182), and its content is what the tables of R184 and R188 say it is. -/
theorem test_image_content : contentGood 2 (rawImageOf imageBytes) = true := by decide +kernel
theorem test_image_read : imageOf (rawImageOf imageBytes) = testImage := by decide +kernel
theorem test_image : checkedImage 2 imageBytes = some testImage := by
  unfold checkedImage
  rw [test_image_check, test_image_content, test_image_read]
  rfl

/-- The same image is rejected at a pier that its layout does not mark present, and with another format byte (R182). -/
theorem test_image_rejected :
    contentGood 5 (rawImageOf imageBytes) = false ∧ contentGood 2 (rawImageOf (imageBytes.set 0 0x07)) = false := by decide +kernel

/-- An image of zeros is rejected (R182). -/
theorem test_image_of_zeros : checkedImage 2 (List.replicate 2048 0) = none := by
  have h : contentGood 2 (rawImageOf (List.replicate 2048 0)) = false := by decide +kernel
  unfold checkedImage
  rw [h, Bool.and_false]
  rfl

/-- Worked interpolation of section 1.4, first gate: 2016 and 1995 mm, opening 2005, skew +21. -/
theorem test_worked_interpolation :
    interpolate testImage.geometry (correctedCount 22810 310) = 2016 ∧ interpolate testImage.geometry (correctedCount 22445 145) = 1995 ∧
      (recompute testImage (openAt 0 served).position).opening = 2005 ∧ (recompute testImage (openAt 0 served).position).skew = 21 := by
  decide

/-- Worked interpolation of section 1.4, second gate: T[15] = 11400 and T[16] = 11800 read 11799 and 11796 mm. -/
theorem test_top_of_travel :
    interpolate (List.replicate 15 0 ++ [11400, 11800]) 65535 = 11799 ∧ interpolate (List.replicate 15 0 ++ [11400, 11800]) 65500 = 11796 := by
  decide

/-- Section 2.1: codes 30000 and 15034 are 4155 and −412 mm; 16 and 65519 are rail codes, 17 and 65518 are not (R16). -/
theorem test_level_scale :
    scaleLevel testImage.params 30000 = 4155 ∧ scaleLevel testImage.params 15034 = -412 ∧ isRail 16 = true ∧ isRail 17 = false ∧
      isRail 65518 = false ∧ isRail 65519 = true := by decide

/-- Worked sequence of section 2.3: the filtered levels of a ring after reset. -/
theorem test_filtered :
    filteredOf [-412] = some (-412) ∧ filteredOf [-412, -409] = some (-411) ∧ filteredOf [-412, -409, -405] = some (-409) ∧
      filteredOf [-412, -409, -405, -401] = some (-407) ∧ filteredOf [] = none := by decide

/-- Worked example of section 2.4: the peer median is 1356 mm. -/
theorem test_peer_median : median [1340, 1362, 1351, 1377] = some 1356 ∧ median [1340] = some 1340 ∧ median [] = none := by decide

/-- Worked sequence of section 2.7, sample 17: the tenth sample of head at least 150 toggles the window in a DETECTED OPEN event. -/
theorem test_tenth_sample_opens :
    let s := served.withTide { served.tide with window := .closed, candidate := 9 }
    let t := evalTide testImage.params (s.withLevel { s.level with head := some 171 })
    t.tide.window = .opened ∧ t.tide.candidate = 0 ∧
      t.line.tideSlot = some { kind := .opens, origin := .detected, day := 0, ms := 0, head := some 171 } := by decide

/-- Worked example of section 5.3: of 2003 dq over four stations the ranks take 501, 501, 501 and 500. -/
theorem test_shares : (List.range 4).map (shareOf 2003 4) = [501, 501, 501, 500] := by decide

/-- Worked examples of section 5.3: the orifice opening of 501 dq is 1571 mm at head 1000, and 7044 mm at heads 30 and −40. -/
theorem test_orifice :
    orificeOpening testImage 501 1000 = 1571 ∧ orificeOpening testImage 501 30 = 7044 ∧ orificeOpening testImage 501 (-40) = 7044 := by
  decide

/-- Worked examples of sections 5.3 and 5.5: the clamp between neighbours at 1300 and 1700, in the gap between 1000 and 1900, and at 1000. -/
theorem test_neighbour_clamp :
    neighbourClamp testImage [1300, 1700] 1571 = 1571 ∧ neighbourClamp testImage [1000, 1900] 1571 = 1450 ∧
      neighbourClamp testImage [1350, 1400] 942 = 1000 := by decide

/-- Worked computation of section 7.3: base 500, commands 479 and 521, codes 12103 and 12466; with the upper limit sampled 0, 8180, 8199. -/
theorem test_worked_drive :
    baseCommand 20 (controlError 1420000 1395) = 500 ∧ trimOf 10 21 = 21 ∧ valveCommand .left 500 21 false false = 479 ∧
      valveCommand .right 500 21 false false = 521 ∧ converterCode 479 (-12) = 12103 ∧ converterCode 521 7 = 12466 ∧
      valveCommand .left 500 21 true false = 0 ∧ nullCode .left served = 8180 ∧ nullCode .right served = 8199 := by decide

/-- Section 7.4: readback 8180 against code 12103 counts a mismatch, conversion 48412 none; 12010 is within VALVE_TOL. -/
theorem test_mismatch :
    mismatchRun 400 12103 32720 1 = 2 ∧ mismatchRun 400 12103 48412 1 = 0 ∧ mismatchRun 400 12103 (BitVec.ofNat 16 (12010 * 4)) 2 = 0 := by
  decide

/-- Worked sequence of section 8.5: the start of plan 3 refills, takes 20 and refills to the queue and interpreter of the table. -/
theorem test_plan_start :
    let t := startPlan 3 (ordered { testOrder with plan := some 3 } served)
    t.plan.state = .running ∧ t.plan.current = some 20 ∧ t.plan.queue = [21, 22, 23, 21, 22, 23, 21, 22] ∧ t.plan.interp.codePtr = 13 ∧
      t.plan.interp.loops = [{ body := 12, remaining := some 1 }] ∧
      t.plan.interp.cursor = some { index := 23, first := 21, last := 23, remaining := 1 } := by decide +kernel

/-- Worked sequence of section 8.5: plan 7, a loop that pushes nothing, fails at its start. -/
theorem test_empty_loop_fails :
    let t := startPlan 7 served
    t.plan.state = .failed ∧ t.plan.queue = [] ∧ t.modeCtl.latched = onlyFault .planBad ∧ t.modeCtl.active = 0 ∧
      t.modeCtl.mode = .auto := by decide +kernel

/-- Section 8.6: a dwell of 300 s lasts 5000 evaluations, one of 1 s lasts 17: the first, and those that follow it. -/
theorem test_dwell_evaluations : dwellRemaining 300000 = 4999 * 60 ∧ dwellRemaining 1000 = 16 * 60 := by decide

/-- Section 6.4: with ANNOUNCE_WAIT 250 ms the grant is first counted at the evaluation 300 ms after the entry into WANT; a lead of 0 is judged
at the next evaluation (R88, R97); STALL_TIME of 10 s at the 167th (R115). -/
theorem test_first_tick : tickAfter 0 250 served = 300 ∧ tickAfter 0 0 served = 60 ∧ tickAfter 300 10 served = 360 ∧
    tickAfter 0 10000 served = 10020 := by decide

/-- The freshness thresholds of R37 at a report period of 500 ms: STALE at age 150, LOST at 500. -/
theorem test_freshness :
    freshnessOf 149 500 = .fresh ∧ freshnessOf 150 500 = .stale ∧ freshnessOf 499 500 = .stale ∧ freshnessOf 500 500 = .lost := by decide

/-! ### Events, one step each -/

/-- An ORDER from console 17 of authority 2 is adopted; the same number again is not newer. -/
theorem test_order_adopted :
    (after (.orderFrame 17 (orderPayload 812 1 2003 255 0xFFFF 0 4 5000)) served).order.adopted = some testOrder ∧
      (after (.orderFrame 17 (orderPayload 812 3 0 255 0xFFFF 0 4 5000)) (ordered testOrder served)).order.adopted = some testOrder := by
  decide +kernel

/-- A console of authority 1 may not order (R53, R54). -/
theorem test_order_needs_authority :
    (after (.orderFrame 19 (orderPayload 813 1 2003 255 0xFFFF 0 4 5000)) served).order.adopted = none := by decide +kernel

/-- RESTART is refused below authority 3 (R68), and resets at 3. -/
theorem test_restart :
    (after (.restart 17 255 0 9 2) served).modeCtl.mode = .auto ∧ (after (.restart 18 255 0 9 2) served).modeCtl.mode = .start := by
  decide +kernel

/-- A control tick starts both reads (R2); the order of the blocks makes no difference to that. -/
theorem test_tick_reads :
    (after (.controlTick quietInputs) served).position.left.readTimer = some 0 ∧
      (after (.controlTick { quietInputs with order := Block.all.reverse }) served).position.right.readTimer = some 0 := by decide +kernel

/-- The key turned to MAINT takes an AUTO station to MAINT (R149). -/
theorem test_tick_maint : (after (.controlTick { quietInputs with maintKey := true }) served).modeCtl.mode = .maint := by decide +kernel

/-- The STORM input takes an AUTO station to STORM (R149), a MAINT station not (R153). -/
theorem test_tick_storm :
    (after (.controlTick { quietInputs with stormInput := true }) served).modeCtl.mode = .storm ∧
      (after (.controlTick { quietInputs with stormInput := true, maintKey := true })
        ((inMode .maint).withModeCtl { (inMode .maint).modeCtl with maintKey := true })).modeCtl.mode = .maint := by decide +kernel

/-- The limit samples of a tick stand for the other blocks once both its reads have ended (R9, R10). -/
theorem test_limit_samples :
    let s := after (.controlTick { quietInputs with upperSwitch := true }) served
    let r := after (.replyWindow .right) (after (.encoderReply ⟨.left, 0⟩ 22810 true) s)
    s.position.upper = false ∧ s.position.upperTaken = true ∧ r.position.upper = true := by decide +kernel

/-- The receiver takes the next frame only after an idle (R174). -/
theorem test_frame_needs_idle :
    let s := after (.frameDropped (.arrived [0, 0, 0, 0, 0])) served
    (after (.frameDropped (.arrived [0, 0, 0, 0, 0])) s).line.errors = 1 ∧
      (after (.frameDropped (.arrived [0, 0, 0, 0, 0])) (after .lineIdle s)).line.errors = 2 := by decide +kernel

/-- The ANNOUNCE_WAIT row and the tick it stands for: the tick does not evaluate the claim again (R88). -/
theorem test_claim_evaluates_once :
    let s := after .announceWait ((claiming .want .granted (openAt 2005 served)).withTarget { served.target with offTarget := true })
    s.grant.moveState = .warn ∧ s.order.clockMs = 300 ∧ s.clocks.tick = 300 ∧ s.clocks.grantAhead = 300 := by decide +kernel

/-- A dropped frame counts once, saturating at 255 (R174, R175). -/
theorem test_frame_counted :
    (after (.frameDropped .lengthOver) served).line.errors = 1 ∧
      (after (.frameDropped .cutOff) (served.withLine { served.line with errors := 255 })).line.errors = 255 := by decide +kernel

/-- A power-on ends the reset it starts only at RESET_END (R180). -/
theorem test_reset :
    (after (.powerOnReset true) served).loader.inReset = true ∧ (after (.resetEnd 2) State.reset).loader.reading = true ∧
      (after (.resetEnd 2) State.reset).loader.cause = .power := by decide +kernel

/-- The fourth failed attempt leaves the station in FAULT with CONFIG (R166, R181). -/
theorem test_image_failed : (after .imageReadFailed reading).modeCtl.mode = .fault := by decide +kernel

/-- A good image takes the station into service, with the first STATE carrying the restart cause PIN (R46, R183). -/
theorem test_image_accepted :
    let t := concludeEvent reading (acceptImage testImage quietInputs 30000 20000 reading)
    t.modeCtl.mode = .auto ∧ t.line.stateSlot.map (·.cause) = some 2 ∧ t.drive.codeL = 8180 := by decide +kernel

/-- At midnight the day counts up (R61). -/
theorem test_midnight : (after .weirClockDay served).order.clockDay = 1 ∧ (after .weirClockDay served).order.clockMs = 0 := by
  decide +kernel

/-- On an empty queue one millisecond passes (log 3). -/
theorem test_idle : (step served) = .next (elapse 1 served) := rfl

/-! ### Witnesses: a state and operands for the hypotheses of each statement -/

/-- The reset that State.reset stands in. -/
theorem witness_ResetRestoresInitialState :
    State.reset.loader.inReset = true := rfl

/-- Consoles 18 (authority 3) and 17 (authority 2), to this station and to all. -/
theorem witness_RestartResetsStation :
    CommandReaches served 18 2 ∧ acceptedImage served = some testImage ∧ 3 ≤ authorityOf testImage 18 ∧
      CommandReaches served 17 255 ∧ authorityOf testImage 17 < 3 := by decide +kernel

/-- An attempt that is the third, and a wait at its start and at its end. -/
theorem witness_FailedReadIsTriedAgain :
    (reading.withLoader { reading.loader with attempts := 2 }).loader.inReset = false ∧
      (reading.withLoader { reading.loader with attempts := 2 }).loader.reading = true ∧
      (reading.withLoader { reading.loader with attempts := 2 }).loader.attempts < 3 ∧
      (reading.withLoader { reading.loader with reading := false, retryTimer := some 0 }).loader.retryTimer = some 0 ∧
      (reading.withLoader { reading.loader with reading := false, retryTimer := some 10 }).loader.retryTimer = some 10 := by decide +kernel

/-- A state after the end of a reset is in the initial state of every block. -/
theorem witness_AtReset :
    AtReset reading := by repeat' constructor

/-- Station 2 at the start of its fourth attempt, after three waits of 10 ms. -/
def fourth : State := elapse 30 reading

/-- It is in START. -/
theorem inStart_fourth : InStart fourth := by
  repeat' apply And.intro
  all_goals decide +kernel

/-- The fourth failed attempt of a run, and a completed read of zeros; START goes on as the weir clock runs. -/
theorem witness_RejectedImageFaults :
    InStart fourth ∧ fourth.order.clockMs = 30 ∧ fourth.loader.inReset = false ∧ fourth.loader.reading = true ∧
      fourth.loader.attempts = 3 ∧
      (∃ t, step (fourth.withPending [.weirClockDay]) = .next t ∧ InStart (fourth.withPending [.weirClockDay]) ∧
        (fourth.withPending [.weirClockDay]).line.changes = [] ∧ t.loader.image = .unread) ∧
      (List.replicate 2048 (0 : Byte)).length = 2048 ∧ checkedImage fourth.loader.strap (List.replicate 2048 0) = none :=
  ⟨inStart_fourth, by decide +kernel, rfl, rfl, rfl, ⟨_, rfl, inStart_fourth, rfl, by decide +kernel⟩, List.length_replicate,
    test_image_of_zeros⟩

/-- The image above, read at station 2 at the fourth attempt. -/
theorem witness_AcceptedImageStartsService :
    InStart fourth ∧ fourth.loader.inReset = false ∧ fourth.loader.reading = true ∧ imageBytes.length = 2048 ∧
      checkedImage fourth.loader.strap imageBytes = some testImage :=
  ⟨inStart_fourth, rfl, rfl, by decide +kernel, test_image⟩

/-- Station 2 with reads of these ages. -/
def readsOpen (l r : Option Nat) : State :=
  let s := openAt 2005 served
  s.withPosition
    { s.position with left := { s.position.left with readTimer := l }, right := { s.position.right with readTimer := r } }

/-- Reads at the start and at the end of the window, a count 256 and 257 away, no read, a read past its window, and a reply to the
request before the latest. -/
theorem witness_EncoderReadEnds :
    Serving (readsOpen (some 0) (some 20)) testImage ∧ Side.right ≠ Side.left ∧
      (readsOpen (some 20) (some 20)).position.left.readTimer = some 20 ∧ (20 : Nat) ≤ 20 ∧
      (encoderOf .right (readsOpen (some 20) (some 20)).position).readTimer.isSome ∧
      replyGood (readsOpen (some 0) none).position.left (22810 + 256) true = true ∧
      replyGood (readsOpen (some 0) none).position.left (22810 + 257) true = false ∧
      (readsOpen none none).position.left.readTimer = none ∧ (readsOpen (some 21) none).position.left.readTimer = some 21 ∧
      0 < 1 := by decide +kernel

/-- The last of the two reads, at the start and at the end of its window, for a reply and for the window. -/
theorem witness_PositionIsFormedFromBothReads :
    Serving (readsOpen (some 20) none) testImage ∧ Side.right ≠ Side.left ∧
      (encoderOf .left (readsOpen (some 20) none).position).readTimer = some 20 ∧
      (encoderOf .left (readsOpen (some 0) none).position).readTimer = some 0 ∧
      (encoderOf .right (readsOpen (some 20) none).position).readTimer = none ∧
      (goodRead true 22810 { (readsOpen (some 20) none).position.left with goodRun := 7 }).goodRun = 8 ∧
      (failedRead { (readsOpen (some 20) none).position.left with failRun := 2 }).failRun = 3 ∧
      condition .encL (readsOpen (some 20) none) = false ∧
      (readsOpen (some 20) none).modeCtl.active &&& (readsOpen (some 20) none).modeCtl.latched =
        (readsOpen (some 20) none).modeCtl.active ∧
      ¬ StopEnters [] (readsOpen (some 20) none) ∧ ¬ StopEnters [.travel] (inMode .fault) ∧
      StopEnters [.encL, .travel] (readsOpen (some 20) none) := by decide +kernel

/-- A reply to the request before the latest belongs to no read, though it arrives in the open read's window (R2). -/
theorem test_late_reply :
    (after (.encoderReply ⟨.left, 1⟩ 22810 true) (readsOpen (some 5) none)).position.left.readTimer = some 5 ∧
      (after (.encoderReply ⟨.left, 0⟩ 22810 true) (readsOpen (some 5) none)).position.left.readTimer = none := by decide +kernel

/-- Section 1.3, tick 15 of the worked sequence: the eighth good read makes ENC_L inactive and clears the good run; the kind stays latched. -/
theorem test_eighth_good_read :
    let s := readsOpen (some 0) none
    let p := s.withPosition { s.position with left := { s.position.left with goodRun := 7 } }
    let t := after (.encoderReply ⟨.left, 0⟩ 22810 true)
      (p.withModeCtl { p.modeCtl with mode := .fault, active := onlyFault .encL, latched := onlyFault .encL })
    t.position.left.goodRun = 0 ∧ condition .encL t = false ∧ hasFault .encL t.modeCtl.latched = true := by decide +kernel

/-- The table of the test image, at a segment boundary, at the largest count, and a flat segment. -/
theorem witness_SideOpeningLiesInSegment :
    checkedImage 2 imageBytes = some testImage ∧ testImage.geometry.length = 17 ∧ nondecreasing testImage.geometry = true ∧
      65535 ≤ 65535 ∧ 20480 % 4096 = 0 ∧ testImage.geometry.getD 15 0 < testImage.geometry.getD 16 0 ∧
      nondecreasing (List.replicate 17 7) = true ∧ (List.replicate 17 7).length = 17 ∧
      (List.replicate 17 7).getD 1 0 = (List.replicate 17 7).getD 0 0 := ⟨test_image, by decide +kernel⟩

/-- Station 2 moving, with three failed reads, five mismatches, a pump timer and a stall window. -/
def failing : State :=
  let s := claiming .moving .granted (openAt 2005 served)
  let p := s.withPosition
    { s.position with left := { s.position.left with failRun := 3 }, right := { s.position.right with failRun := 255 } }
  let d := p.withDrive { p.drive with runL := 5, runR := 5, stall := some { age := 0, startOpening := 2009 } }
  let g := d.withGrant { d.grant with pumpTimer := some 0 }
  g.withTarget { g.target with effective := 1000 }

/-- Station 2 in WARN off its target with a bypass claim, its lead over and its pump timer running. -/
def pumping : State :=
  let s := claiming .warn .bypass (openAt 2005 served)
  let g := s.withGrant { s.grant with pumpTimer := some 8000 }
  g.withTarget { g.target with offTarget := true }

/-- The failing state with both mismatch runs at 3. -/
def stallingNow : State := failing.withDrive { failing.drive with runL := 3, runR := 3 }

/-- Three failed reads, five mismatches, a pump timer in MOVING and in WARN, a stall window 4 mm away at a base command of −1000. -/
theorem witness_StopClassFaultsTakeStationToFault :
    Serving failing testImage ∧ canFault failing.modeCtl.mode = true ∧ hasStopClass failing.modeCtl.latched = false ∧
      failing.modeCtl.active &&& failing.modeCtl.latched = failing.modeCtl.active ∧
      3 ≤ (encoderOf .left failing.position).failRun ∧ 5 ≤ mismatchOf .right failing.drive ∧ failing.grant.pumpTimer = some 0 ∧
      failing.grant.moveState = .moving ∧ failing.drive.setpoint ≠ failing.target.effective * 1000 ∧
      Serving pumping testImage ∧ pumping.grant.pumpTimer = some 8000 ∧ pumping.grant.moveState = .warn ∧
      pumping.target.offTarget = true ∧ pumping.grant.warnTimer = some 0 ∧ pumping.grant.warnLead ≤ 0 ∧ pumping.grant.moveKind = .bypass ∧
      Serving stallingNow testImage ∧ hasStopClass stallingNow.modeCtl.latched = false ∧ stallingNow.grant.moveState = .moving ∧
      stallingNow.drive.runL < 4 ∧ stallingNow.drive.runR < 4 ∧
      stallingNow.drive.stall = some { age := 0, startOpening := 2009 } ∧
      300 ≤ (baseCommand testImage.params.kp
        (controlError (ramp stallingNow.drive.setpoint (stallingNow.target.effective * 1000) (speedOf testImage stallingNow.target.speed))
          stallingNow.position.opening)).natAbs ∧
      ((stallingNow.position.opening : Int) - 2009).natAbs < 5 ∧ stallingNow.position.skew.natAbs ≤ testImage.params.skewTrip := by decide +kernel

/-- Station 2 with rail and good runs at these counts, and these conditions active. -/
def levelsAt (rail good : Nat) (active : FaultSet) : State :=
  let s := served.withLevel { served.level with up := { served.level.up with railRun := rail, goodRun := good } }
  let p := s.withPosition { s.position with left := { s.position.left with goodRun := good } }
  p.withModeCtl { p.modeCtl with active := active, latched := active }

/-- Station 2 with a tide window, a candidate count and TIDE_BLIND. -/
def tided (w : Window) (n : Nat) (blind : Bool) (s : State) : State :=
  s.withTide { s.tide with window := w, candidate := n, blind := blind }

/-- A third rail code. -/
theorem witness_LevelFaultIsLatchedOnly :
    acceptedImage (levelsAt 3 0 0) = some testImage ∧ 3 ≤ (channelOf .upstream (levelsAt 3 0 0).level).railRun ∧
      condition (channelKind .upstream) (levelsAt 3 0 0) = false := by decide +kernel

/-- Good runs of 8 with LEVEL_UP, and with ENC_L, active. -/
theorem witness_EighthGoodReadRecovers :
    acceptedImage (levelsAt 0 8 (onlyFault .levelUp)) = some testImage ∧
      8 ≤ (channelOf .upstream (levelsAt 0 8 (onlyFault .levelUp)).level).goodRun ∧
      condition (channelKind .upstream) (levelsAt 0 8 (onlyFault .levelUp)) = true ∧
      8 ≤ (encoderOf .left (levelsAt 0 8 (onlyFault .encL)).position).goodRun ∧
      condition (encoderKind .left) (levelsAt 0 8 (onlyFault .encL)) = true := by decide +kernel

/-- A serving station; codes at the edges of the rail; a sample with head and one without; a third rail code; each window, its candidate count
below TIDE_QUALIFY and at it; the level that makes a storm, with each claim. -/
theorem witness_LevelSampleFormsHead :
    Serving served testImage ∧ isRail 16 = true ∧ isRail 17 = false ∧ isRail 65518 = false ∧ isRail 65519 = true ∧
      (after (.levelSample 30000 20000) served).level.head = some 3052 ∧ (after (.levelSample 16 65519) served).level.head = none ∧
      (channelOf .upstream (after (.levelSample 16 17) (levelsAt 2 0 0)).level).railRun = 3 ∧ condition .levelUp (levelsAt 2 0 0) = false ∧
      served.tide.window = .undecided ∧ (tided .closed 8 false served).tide.window ≠ .undecided ∧
      (tided .closed 8 false served).tide.candidate + 1 < testImage.params.tideQualify ∧
      testImage.params.tideQualify ≤ (tided .closed 9 false served).tide.candidate + 1 ∧ (tided .opened 9 false served).tide.window = .opened ∧
      (after (.levelSample 30000 26215) served).modeCtl.mode ≠ served.modeCtl.mode ∧ served.modeCtl.save = none ∧
      (after (.levelSample 30000 26214) served).modeCtl.mode = served.modeCtl.mode ∧
      (after (.levelSample 30000 26215) (claiming .want .granted served)).modeCtl.mode = .storm ∧
      (after (.levelSample 30000 26215) (claiming .warn .granted served)).modeCtl.mode = .storm ∧
      (after (.levelSample 30000 26215) (claiming .moving .granted served)).modeCtl.mode = .storm := by decide +kernel

/-- Five values, two of them equal; one value; an even count, of which the middle two have no whole mean. -/
theorem witness_MedianIsMiddleValue :
    [3, 1, 2, 2, 9].Perm [9, 2, 2, 1, (3 : Int)] ∧ [3, 1, 2, 2, (9 : Int)].length % 2 = 1 ∧ median [3, 1, 2, 2, 9] = some 2 ∧
      [3, 1, 6, (2 : Int)].Perm [1, 2, 3, 6] ∧ [1, 2, 3, (6 : Int)].Pairwise (· ≤ ·) ∧ median [3, 1, 6, 2] = some 2 ∧
      [1, 2, 3, (6 : Int)].length = 2 * 1 + 2 ∧ [1, 2, 2, 3, (9 : Int)].Pairwise (· ≤ ·) ∧ [1, 2, 2, 3, (9 : Int)].length = 2 * 2 + 1 ∧
      median [7] = some 7 := by decide

/-- The largest radicand below the bound. -/
theorem witness_IntegerRootIsLargest :
    (2 ^ 64 - 1 : Nat) < 2 ^ 64 := by decide

/-- Ten candidates of a CLOSED and of an OPEN window. -/
theorem witness_QualifiedTideTogglesWindow :
    acceptedImage (tided .closed 10 false served) = some testImage ∧ testImage.params.tideQualify ≤ (tided .closed 10 false served).tide.candidate ∧
      (tided .closed 10 false served).tide.window = .closed ∧ (tided .opened 10 false served).tide.window = .opened := by decide +kernel

/-- A tide event of a peer. -/
def peerTide : TideRecord := { kind := .opens, origin := .detected, day := 3, ms := 4, head := none }

/-- Row 1 FRESH, blind with each window, and a sighted station. -/
theorem witness_BlindStationTakesPeerTide :
    receiving (tided .undecided 0 true (hearing 1 peerFrame served)) = true ∧ (1 : Byte).toNat ≤ 23 ∧
      tideOfPayload (tidePayload peerTide) = some peerTide ∧ (tided .closed 0 false served).tide.blind = false ∧
      rowFresh 2 served = false ∧ (tided .opened 0 true served).tide.window = windowOf peerTide.kind ∧
      (tided .undecided 0 true (hearing 1 peerFrame served)).tide.blind = true ∧
      rowFresh 1 (tided .closed 0 true (hearing 1 peerFrame served)) = true ∧
      (tided .closed 0 true (hearing 1 peerFrame served)).tide.window ≠ .undecided ∧
      (tided .closed 0 true (hearing 1 peerFrame served)).tide.window ≠ windowOf peerTide.kind := by decide +kernel

/-- An EMPTY row and a filled one. -/
theorem witness_AgeingStepSetsFreshness :
    Serving (hearing 15 peerFrame served) testImage ∧ (hearing 15 peerFrame served).peers.rows[0]? = some { age := 0, content := none } ∧
      (hearing 15 peerFrame served).peers.rows[15]? = some { age := 0, content := some (rowOf peerFrame) } := by decide +kernel

/-- Every row has an age: 0 after a reset, also while EMPTY (R48); a filled row's counts, an EMPTY one's does not (R37). -/
theorem test_row_ages :
    State.reset.peers.rows.map (·.age) = List.replicate 16 0 ∧
      ((after .peerAgeing (after .peerAgeing (hearing 15 peerFrame served))).peers.rows.map (·.age)).take 2 = [0, 0] ∧
      ((after .peerAgeing (after .peerAgeing (hearing 15 peerFrame served))).peers.rows.map (·.age)).drop 15 = [2] := by decide +kernel

/-- STATE frames of stations 1 and 4 without an order, of the absent station 15, of console 16, and at a station with a rejected image. -/
theorem witness_StateFrameRefreshesRow :
    acceptedImage served = some testImage ∧ receiving served = true ∧ (4 : Byte).toNat ≤ 15 ∧ (layoutAt testImage.layout 4).present = true ∧
      (4 : Byte).toNat ≠ served.loader.strap ∧ (layoutAt testImage.layout 15).present = false ∧ 15 < (16 : Byte).toNat ∧
      stateOfPayload (statePayload peerFrame) = some peerFrame ∧ peerFrame.orderNumber = 0 ∧
      receiving (reading.withLoader { reading.loader with image := .rejected }) = true ∧
      acceptedImage (reading.withLoader { reading.loader with image := .rejected }) = none := by decide +kernel

/-- A STATE with SOURCE 2 at station 2. -/
theorem witness_OwnNumberInStateFrameStops :
    acceptedImage served = some testImage ∧ receiving served = true ∧ (2 : Byte).toNat = served.loader.strap ∧
      stateOfPayload (statePayload peerFrame) = some peerFrame ∧ canFault served.modeCtl.mode = true ∧
      hasStopClass served.modeCtl.latched = false ∧ served.modeCtl.active &&& served.modeCtl.latched = served.modeCtl.active := by decide +kernel

/-- A duplicate timer at its start and at its end; a layout with others present. -/
theorem witness_SilenceTimersActAtTenPeriods :
    Serving served testImage ∧ (served.withPeers { served.peers with duplicateTimer := some 0 }).peers.duplicateTimer = some 0 ∧
      (served.withPeers { served.peers with duplicateTimer := some 5000 }).peers.duplicateTimer = some 5000 ∧
      hasPeers testImage served = true ∧ condition .alone served = false := by decide +kernel

/-- A frame of five zeros; with the other faults there is no further hypothesis. -/
theorem witness_FaultyFrameIsCountedOnce :
    receiving served = true ∧ arrivalFault [0, 0, 0, 0, 0] = true := by decide +kernel

/-- A first order, number 1; a newer number; the same number from a lower console; the plan it names live and held, live between two steps with
HALT and without, not live; a plan whose directory entry is EMPTY; a plan 3 that refills; a station outside AUTO; an order that makes a storm. -/
theorem witness_NewerOrderIsAdopted :
    acceptedImage served = some testImage ∧ receiving served = true ∧ (orderPayload 1 1 2003 255 0xFFFF 0 4 5000).length = 17 ∧
      orderKindOfCode (byteAt (orderPayload 1 1 2003 255 0xFFFF 0 4 5000) 4) = some .discharge ∧
      1 ≤ word (orderPayload 1 1 2003 255 0xFFFF 0 4 5000) 0 ∧ 2 ≤ authorityOf testImage 17 ∧ served.order.adopted = none ∧
      (ordered testOrder served).order.adopted = some testOrder ∧ testOrder.number < word (orderPayload 813 3 0 255 0 0 4 86400000) 0 ∧
      (17 : Nat) < { testOrder with origin := 18 }.origin ∧ served.modeCtl.mode = .auto ∧
      (after (.orderFrame 17 (orderPayload 1 1 2003 3 0xFFFF 0 4 5000)) served).modeCtl.mode = .auto ∧
      (BitVec.ofNat 16 (half (orderPayload 1 1 2003 3 0xFFFF 0 4 5000) 8)).getLsbD served.loader.strap = true ∧
      PlanLive (planned .held (some 22) served).plan.state ∧ (planned .held (some 22) served).plan.number = some 3 ∧
      (planned .running none served).plan.current = none ∧ (byteAt (orderPayload 1 1 2003 3 0xFFFF 1 4 5000) 10).testBit 0 = true ∧
      (byteAt (orderPayload 1 1 2003 3 0xFFFF 0 4 5000) 10).testBit 3 = false ∧ ¬ PlanLive served.plan.state ∧
      testImage.directory.getD 0 none = none ∧ testImage.directory.getD 3 none = some 10 ∧ condition .planBad served = false ∧
      (after (.orderFrame 17 (orderPayload 1 1 2003 0 0xFFFF 0 4 5000)) served).plan.state = .failed ∧
      (after (.orderFrame 17 (orderPayload 1 1 2003 3 0xFFFF 0 4 5000)) served).plan.state ≠ .failed ∧
      (inMode .loc).modeCtl.mode ≠ .auto ∧
      (after (.orderFrame 17 (orderPayload 1 1 2003 3 0xFFFF 0 4 5000)) (inMode .loc)).modeCtl.mode = .loc ∧
      (after (.orderFrame 17 (orderPayload 1 1 2003 3 0xFFFF 2 4 5000)) (claiming .moving .granted served)).modeCtl.mode = .storm ∧
      haltInForce (ordered { testOrder with storm := true } served) = false ∧
      (after (.orderFrame 17 (orderPayload 1 1 2003 3 0xFFFF 2 4 5000)) served).plan.state = .held ∧
      (after (.orderFrame 17 (orderPayload 1 1 2003 3 0xFFFF 2 4 5000)) served).modeCtl.save.map (fun c => c.state) = some .running ∧
      (after (.orderFrame 17 (orderPayload 1 1 2003 3 0xFFFF 3 4 5000)) (inMode .loc)).modeCtl.mode = .storm := by decide +kernel

/-- A rejected image; a station's order; kind 0; number 0; authority 1; an older number; the held key. -/
theorem witness_OtherOrdersChangeNothing :
    acceptedImage reading = none ∧ receiving (reading.withLoader { reading.loader with image := .rejected }) = true ∧
      acceptedImage (reading.withLoader { reading.loader with image := .rejected }) = none ∧
      receiving (ordered testOrder served) = true ∧ (15 : Byte).toNat ≤ 15 ∧ orderKindOfCode (byteAt (orderPayload 1 0 0 0 0 0 0 0) 4) = none ∧
      orderKindOfCode (byteAt (orderPayload 0 1 0 0 0 0 0 0) 4) ≠ none ∧ word (orderPayload 0 1 0 0 0 0 0 0) 0 = 0 ∧
      authorityOf testImage 19 < 2 ∧ word (orderPayload 811 1 0 0 0 0 0 0) 0 < testOrder.number ∧
      word (orderPayload 812 1 0 0 0 0 0 0) 0 = testOrder.number ∧ testOrder.origin ≤ 17 := by decide +kernel

/-- A peer's STATE that echoes order (812, 17). -/
def echoFrame : StateFrame := { peerFrame with orderNumber := 812, orderOrigin := 17, orderKind := 1, orderValue := 2003 }

/-- The echo of an order of console 17, at a station with no order and at one with an older and at one with the same; echoes of no kind, of origins 15
and 24, and of a console of authority 1. -/
theorem witness_EchoedOrderIsAdopted :
    acceptedImage served = some testImage ∧ receiving served = true ∧ rowConfigured testImage 3 served = true ∧
      stateOfPayload (statePayload echoFrame) = some echoFrame ∧ 1 ≤ echoFrame.orderNumber ∧
      orderKindOfCode echoFrame.orderKind = some .discharge ∧ 16 ≤ echoFrame.orderOrigin ∧ echoFrame.orderOrigin ≤ 23 ∧
      2 ≤ authorityOf testImage echoFrame.orderOrigin ∧ served.order.adopted = none ∧ (811 : Nat) < echoFrame.orderNumber ∧
      orderKindOfCode { echoFrame with orderKind := 0 }.orderKind = none ∧
      stateOfPayload (statePayload { echoFrame with orderKind := 0 }) = some { echoFrame with orderKind := 0 } ∧
      stateOfPayload (statePayload { echoFrame with orderOrigin := 15 }) = some { echoFrame with orderOrigin := 15 } ∧
      stateOfPayload (statePayload { echoFrame with orderOrigin := 24 }) = some { echoFrame with orderOrigin := 24 } ∧
      stateOfPayload (statePayload { echoFrame with orderOrigin := 19 }) = some { echoFrame with orderOrigin := 19 } ∧
      authorityOf testImage 19 < 2 ∧ (ordered testOrder served).order.adopted = some testOrder ∧
      echoFrame.orderNumber = testOrder.number ∧ testOrder.origin ≤ echoFrame.orderOrigin := by decide +kernel

/-- The same echo with plan 3 for every station, with HALT or STORM. -/
def echoing (halt storm : Bool) : StateFrame := { echoFrame with orderPlan := 3, orderMask := 0xFFFF, halt := halt, storm := storm }

/-- It comes to a station in AUTO that stands or moves, and to one in LOCAL. -/
theorem witness_EchoedOrderIsAdopted_acts :
    stateOfPayload (statePayload (echoing false true)) = some (echoing false true) ∧
      (after (.stateFrame 3 (statePayload (echoing false false))) served).plan.state = .running ∧
      (after (.stateFrame 3 (statePayload (echoing true false))) (claiming .moving .granted served)).grant.moveState = .still ∧
      (after (.stateFrame 3 (statePayload (echoing false true))) served).modeCtl.mode = .storm ∧
      (after (.stateFrame 3 (statePayload (echoing false true))) served).plan.state = .held ∧
      (after (.stateFrame 3 (statePayload (echoing false true))) (inMode .loc)).modeCtl.mode = .storm ∧
      (after (.stateFrame 3 (statePayload (echoing false false))) (inMode .loc)).order.deferred = true := by decide +kernel

/-- Two offered orders. -/
def offers : List (OrderKind × OfferedOrder) :=
  [(.close, { number := 1, origin := 17, kindCode := 3, value := 0, plan := 255, mask := 0xFFFF, flags := 0 }),
    (.opening, { number := 2, origin := 18, kindCode := 2, value := 500, plan := 255, mask := 0xFFFF, flags := 0 })]

/-- The two in both orders, at a station in AUTO and at one in LOCAL that hold the same order. -/
theorem witness_SameOrdersGiveSameKey :
    acceptedImage (ordered testOrder served) = some testImage ∧ acceptedImage (ordered testOrder (inMode .loc)) = some testImage ∧
      (ordered testOrder served).order.adopted = (ordered testOrder (inMode .loc)).order.adopted ∧ offers.Perm offers.reverse :=
  ⟨rfl, rfl, rfl, (List.reverse_perm offers).symm⟩

/-- An ORDER with HALT at a station in AUTO that asks to move, and at one that moves. -/
theorem witness_HaltStopsAtAdoption :
    acceptedImage (claiming .want .granted served) = some testImage ∧ receiving (claiming .moving .granted served) = true ∧
      (orderPayload 1 3 0 255 0x0004 1 0 0).length = 17 ∧ orderKindOfCode (byteAt (orderPayload 1 3 0 255 0x0004 1 0 0) 4) ≠ none ∧
      1 ≤ word (orderPayload 1 3 0 255 0x0004 1 0 0) 0 ∧ 2 ≤ authorityOf testImage 17 ∧
      (claiming .want .granted served).order.adopted = none ∧ (claiming .want .granted served).modeCtl.mode = .auto ∧
      (byteAt (orderPayload 1 3 0 255 0x0004 1 0 0) 10).testBit 0 = true ∧
      (BitVec.ofNat 16 (half (orderPayload 1 3 0 255 0x0004 1 0 0) 8)).getLsbD served.loader.strap = true ∧
      (claiming .want .granted served).grant.moveState ≠ .still ∧ (claiming .moving .granted served).grant.moveState = .moving := by decide +kernel

/-- A station's command; another's number; authority 1 for ABANDON; a rejected image. -/
theorem witness_CommandsAreCheckedFirst :
    commandOf (.abandon 19 255 0 1) = some ⟨19, 255, 1, 4, 2⟩ ∧ receiving served = true ∧ (15 : Byte).toNat ≤ 15 ∧
      (3 : Byte).toNat ≠ 255 ∧ (3 : Byte).toNat ≠ served.loader.strap ∧ authorityOf testImage 19 < 2 ∧
      receiving (reading.withLoader { reading.loader with image := .rejected }) = true ∧
      acceptedImage (reading.withLoader { reading.loader with image := .rejected }) = none := ⟨rfl, by decide +kernel⟩

/-- Station 2 with plan 3 HELD at its step 22, its interpreter as the worked sequence of section 8.7 has it, and this resume point. -/
def heldPlan (r : ResumePoint) : State :=
  let s := planned .held (some 22) served
  s.withPlan { s.plan with resume := some r, queue := [23, 21], interp := { Interp.cleared with ended := true } }

/-- Plans HELD at CURRENT, at NEXT with a step queued, with HALT, and with none left; and one that is not HELD. -/
theorem witness_ResumeContinuesHeldPlan :
    CommandReaches (heldPlan .next) 19 2 ∧ acceptedImage (heldPlan .next) = some testImage ∧ 1 ≤ authorityOf testImage 19 ∧
      (planned .running (some 22) served).plan.state ≠ .held ∧ (heldPlan .current).plan.state = .held ∧
      (heldPlan .current).modeCtl.mode = .auto ∧ (heldPlan .current).plan.resume = some .current ∧
      (refillLoop testImage refillFuel { (heldPlan .current).plan with state := .running, resume := none, aimJudged := false }).isSome ∧
      (heldPlan .next).plan.resume = some .next ∧ haltInForce (heldPlan .next) = false ∧
      haltInForce (ordered { testOrder with halt := true } (heldPlan .next)) = true ∧
      (refillLoop testImage refillFuel { (heldPlan .next).plan with state := .running, resume := none, current := none }).map (·.queue) =
        some [23, 21] ∧
      (refillLoop testImage refillFuel
        { (heldPlan .next).plan with state := .running, resume := none, current := none, queue := [] }).map (fun p => (p.queue, p.interp.ended)) =
        some ([], true) := by decide +kernel

/-- Console 19 (authority 1), console 16 (authority 0). -/
theorem witness_FinishAtHoldSetsRequest :
    CommandReaches served 19 2 ∧ CommandReaches served 16 255 ∧ acceptedImage served = some testImage := by decide +kernel

/-- Kinds 1 and 2, and the two bytes beside them; a window at the kind and away from it. -/
theorem witness_TideEventCommandMovesWindow :
    CommandReaches served 19 2 ∧ acceptedImage served = some testImage ∧ 1 ≤ authorityOf testImage 19 ∧ (0 : Byte).toNat ≠ 1 ∧
      (3 : Byte).toNat ≠ 2 ∧ (1 : Byte).toNat = 1 ∧ (2 : Byte).toNat = 2 ∧ (tided .opened 0 false served).tide.window = windowOf .opens ∧
      served.tide.window ≠ windowOf .closes := by decide +kernel

/-- STORM; no plan; no plan with a deferred action; a plan HELD in FAULT. -/
theorem witness_AbandonEndsPlan :
    CommandReaches served 17 2 ∧ acceptedImage served = some testImage ∧ 2 ≤ authorityOf testImage 17 ∧ (inMode .storm).modeCtl.mode = .storm ∧
      ¬ PlanLive served.plan.state ∧ served.order.deferred = false ∧
      ((inMode .loc).withOrder { served.order with deferred := true }).order.deferred = true ∧ (inMode .fault).modeCtl.mode ≠ .storm ∧
      PlanLive (planned .held (some 22) (inMode .fault)).plan.state := by decide +kernel

/-- A station with an adopted order that names plan 3, its action pending. -/
def awaiting (s : State) : State :=
  (ordered { testOrder with plan := some 3 } s).withOrder
    { (ordered { testOrder with plan := some 3 } s).order with deferred := true }

/-- Nothing to remove; a degrade-class kind to remove in AUTO; the last stop-class kind to remove in FAULT, with a plan action pending and none. -/
theorem witness_ClearFaultRemovesEndedKinds :
    CommandReaches served 17 2 ∧ acceptedImage served = some testImage ∧ 2 ≤ authorityOf testImage 17 ∧
      served.modeCtl.latched &&& dropFault .alone served.modeCtl.active = served.modeCtl.latched ∧
      onlyFault .levelUp &&& dropFault .alone (0 : FaultSet) ≠ onlyFault .levelUp ∧ (inMode .auto).modeCtl.mode ≠ .fault ∧
      onlyFault .stall &&& dropFault .alone (0 : FaultSet) ≠ onlyFault .stall ∧ (inMode .fault).modeCtl.mode = .fault ∧
      hasStopClass (onlyFault .stall &&& dropFault .alone (0 : FaultSet)) = false ∧
      stormDemand (inMode .fault) = false ∧ keyMode (inMode .fault) = .auto ∧ (inMode .fault).modeCtl.save = none ∧
      (inMode .fault).order.deferred = false ∧ ¬ PlanLive (inMode .fault).plan.state ∧
      ({ testOrder with plan := some 3 } : Order).mask.getLsbD (inMode .fault).loader.strap = true ∧
      (planContext (planned .held (some 22) served)).state ≠ .running ∧ (awaiting (inMode .fault)).order.deferred = true ∧
      keyMode (awaiting (inMode .fault)) = .auto ∧ (inMode .fault).grant.moveState = .still ∧
      (after (.clearFault 17 2 0 0)
        ((awaiting (inMode .fault)).withModeCtl { (inMode .fault).modeCtl with latched := onlyFault .stall })).plan.state = .running := by
  decide +kernel

/-- Console 17. -/
theorem witness_ClearCountsZeroesCounter :
    CommandReaches served 17 2 ∧ acceptedImage served = some testImage ∧ 2 ≤ authorityOf testImage 17 := by decide +kernel

/-- Codes 0 and 8; a console of authority 0, a station, and another station's number. -/
theorem witness_UnknownCommandIsAnswered :
    CommandReaches served 16 255 ∧ receiving served = true ∧ (0 : Byte).toNat = 0 ∧ 7 < (8 : Byte).toNat ∧ (15 : Byte).toNat ≤ 15 ∧
      16 ≤ (16 : Byte).toNat ∧ (3 : Byte).toNat ≠ 255 ∧ (3 : Byte).toNat ≠ served.loader.strap := by decide +kernel

/-- Station 2 with a STATE in its slot, on the line or not, and these timers. -/
def sendingLine (sent : Option OutFrame) (gap : Nat) (mark : Bool) : State :=
  served.withLine
    { served.line with
      stateSlot := some peerFrame, tideSlot := some peerTide, sending := sent, idle := sent.isNone, gapTimer := gap, mark := mark
      reportTimer := some 0, txTimer := some 0, dominantRun := none }

/-- A change of the latched set; a report timer at its start, with and without the own STATE on the line; a gap at its start with a mark and without. -/
theorem witness_DueReportsAreBuilt :
    (∃ t, exec .alone served = .next t ∧ lineWorks t = true ∧ ReportedChange served t) ∧
      lineWorks (sendingLine none 0 true) = true ∧ (sendingLine none 0 true).line.reportTimer = some 0 ∧
      (sendingLine none 0 true).line.reportFired = false ∧ sendingState (sendingLine none 0 true) = false ∧
      sendingState (sendingLine (some (.state peerFrame)) 0 false) = true ∧ (sendingLine none 50 true).line.gapTimer ≤ 50 ∧
      (sendingLine none 0 true).line.periodicDue = false ∧ (sendingLine none 0 true).line.mark = true ∧
      (sendingLine none 0 false).line.mark = false := ⟨⟨_, rfl, by decide +kernel, by decide +kernel⟩, by decide +kernel⟩

/-- Station 2, on a line that another node holds dominant for `run` ms, with these changes to come. -/
def heldDominant (run : Nat) (coming : List LineChange) : State :=
  served.withLine { served.line with idle := false, awaitIdle := true, dominantRun := some run, changes := coming }

/-- An idle line with a STATE waiting, with a TIDE alone, and with nothing; a busy line; a foreign start bit after 5 ms, at its moment and just
after it, and no change within 4 ms; a station with a rejected image. -/
theorem witness_IdleLineLetsStationSend :
    lineWorks served = true ∧ served.line.sending = none ∧ (sendingLine none 0 false).line.idle = true ∧
      (sendingLine none 0 false).line.stateSlot = some peerFrame ∧ (sendingLine none 0 false).line.tideSlot = some peerTide ∧
      served.line.stateSlot = none ∧ served.line.tideSlot = none ∧ (sendingLine (some (.state peerFrame)) 0 false).line.idle = false ∧
      (served.withLine { served.line with changes := [{ wait := 5, dominant := true }] }).loader.inReset = false ∧ (5 : Nat) ≤ 5 ∧
      (5 : Nat) ≤ 6 ∧ NoChangeWithin 4 [{ wait := 5, dominant := true }] ∧
      lineWorks (served.withLoader { served.loader with image := .rejected }) = true ∧
      acceptedImage (served.withLoader { served.loader with image := .rejected }) = none := by decide +kernel

/-- A foreign start bit 5 ms ahead ends the idle at its moment, so that a station whose frame becomes ready then does not start (R170). -/
theorem test_foreign_start_bit :
    let s := (sendingLine none 0 false).withLine { (sendingLine none 0 false).line with changes := [{ wait := 5, dominant := true }] }
    (after .sendStart (elapse 4 s)).line.sending = some (.state peerFrame) ∧ (after .sendStart (elapse 5 s)).line.sending = none := by
  decide +kernel

/-- The worked sequence of section 10.4: dominant from moment 0, past 2000 ms, recessive at 6300 ms (R173). -/
theorem test_dominant_run :
    let s := hearLine [{ wait := 0, dominant := true }, { wait := 6300, dominant := false }] served
    s.line.dominantRun = some 0 ∧ condition .txBlocked (after .dominantRun s) = true ∧
      (after .dominantRun s).line.dominantRun = some 2001 ∧ (elapse 6300 s).line.dominantRun = none ∧
      condition .txBlocked (after .dominantRun (hearLine [{ wait := 2001, dominant := false }] (hearLine [{ wait := 0, dominant := true }] served))) =
        true ∧
      condition .txBlocked (after .dominantRun (hearLine [{ wait := 2000, dominant := false }] (hearLine [{ wait := 0, dominant := true }] served))) =
        false ∧
      condition .txBlocked (after .dominantRun served) = false := by
  decide +kernel

/-- Bit 0, the start bit, driven dominant; bit 9, the stop bit, driven recessive. -/
theorem witness_LossKeepsFrameInSlot :
    lineWorks (sendingLine (some (.tide peerTide)) 0 false) = true ∧
      drivenBit 0 (sendingLine (some (.tide peerTide)) 0 false) = some false ∧
      drivenBit 9 (sendingLine (some (.tide peerTide)) 0 false) = some true ∧
      (sendingLine (some (.tide peerTide)) 0 false).line.mark = false ∧
      (sendingLine (some (.tide peerTide)) 0 false).line.periodicDue = false ∧
      drivenBit 150 (sendingLine (some (.tide peerTide)) 0 false) = none := by decide +kernel

/-- A STATE and a TIDE on the line. -/
theorem witness_CompletedFrameLeavesSlot :
    lineWorks (sendingLine (some (.state peerFrame)) 0 false) = true ∧
      (sendingLine (some (.state peerFrame)) 0 false).line.sending = some (.state peerFrame) ∧
      (sendingLine (some (.tide peerTide)) 0 false).line.sending = some (.tide peerTide) := by decide +kernel

/-- A TX-blocked timer at its start; a dominant run that goes on, one that ends at 2001 ms, one that ends at 2000 ms, one of the station's
own start bit, and none; a run that starts, one that
goes on and one that stops at a change, with none after it within the time. -/
theorem witness_BlockedSenderIsLatched :
    lineWorks (sendingLine none 0 false) = true ∧ condition .txBlocked (sendingLine none 0 false) = false ∧
      (sendingLine none 0 false).line.txTimer = some 0 ∧ (sendingLine none 0 false).line.txExpired = false ∧
      lineWorks (heldDominant 3 []) = true ∧ condition .txBlocked (heldDominant 3 []) = false ∧
      (heldDominant 3 []).line.sending = none ∧ (elapse (2000 - 3) (heldDominant 3 [])).line.dominantRun = some 2000 ∧
      (elapse (2000 - 3) (heldDominant 3 [{ wait := 1998, dominant := false }])).line.dominantRun = some 2000 ∧
      (elapse (2000 - 3) (heldDominant 3 [{ wait := 1997, dominant := false }])).line.dominantRun = none ∧
      (after .sendStart (sendingLine none 0 false)).line.sending.isSome ∧
      (after .sendStart (sendingLine none 0 false)).line.dominantRun = some 0 ∧
      lineWorks (after .sendStart (sendingLine none 0 false)) = true ∧
      condition .txBlocked (after .sendStart (sendingLine none 0 false)) = false ∧
      served.line.dominantRun = none ∧ served.loader.inReset = false ∧ served.line.sending = none ∧
      (hearLine [{ wait := 5, dominant := true }, { wait := 9, dominant := false }] served).line.changes =
        [{ wait := 5, dominant := true }, { wait := 9, dominant := false }] ∧
      (heldDominant 3 [{ wait := 5, dominant := false }]).line.sending = none ∧
      NoChangeWithin 8 [{ wait := 9, dominant := false }] := by decide +kernel

/-- Stations 0 and 15, and 14 and 15. -/
theorem witness_LowerNumberWinsArbitration :
    (0 : Nat) ≤ 15 ∧ (15 : Nat) ≤ 15 ∧ (0 : Nat) < 15 ∧ (14 : Nat) < 15 := by decide

/-- A peer's STATE; a TIDE with every field at its end; COMMAND payloads of three and of five bytes, and with the codes 0, 1, 7 and 8. -/
theorem witness_PayloadsCarryEveryField :
    StateFits peerFrame ∧ TideFits { kind := .closes, origin := .peer, day := 65535, ms := 4294967295, head := some 32767 } ∧
      TideFits { kind := .closes, origin := .peer, day := 0, ms := 0, head := some (-32767) } ∧
      [2, 1, (0 : Byte)].length ≠ 4 ∧ [2, 1, 0, 9, (0 : Byte)].length ≠ 4 ∧
      eventOfCommand 17 [2, 1, 0, 9] 0 = some (.resume 17 2 0 9) ∧ eventOfCommand 18 [255, 7, 0, 9] 3 = some (.restart 18 255 0 9 3) ∧
      eventOfCommand 17 [2, 0, 0, 9] 0 = some (.unknownCommand 17 2 0 0 9) ∧
      eventOfCommand 17 [2, 8, 0, 9] 0 = some (.unknownCommand 17 2 8 0 9) := by
  refine ⟨?_, ?_, ?_, by decide, by decide, by decide, by decide, by decide, by decide⟩
  · repeat' apply And.intro
    all_goals decide +kernel
  · exact ⟨by decide, by decide, fun v hv => by cases hv; decide⟩
  · exact ⟨by decide, by decide, fun v hv => by cases hv; decide⟩

/-- The highest SOURCE. -/
theorem witness_SentFramesPassReception :
    (23 : Nat) ≤ 23 := by decide

/-- Station 2 at a tick with the keys as given: AUTO with a plan RUNNING turned to LOCAL, to MAINT with a claim in WANT, and to STORM; LOCAL turned to AUTO with
HALT in force; a STORM in which the demand has ended. -/
theorem witness_ControlTickSamplesInputs :
    Serving served testImage ∧ (atTurn testImage { quietInputs with localKey := true } .mode (planned .running (some 22) served)).modeCtl.mode = .auto ∧
      (planned .running (some 22) served).modeCtl.save = none ∧ (planned .running (some 22) served).plan.state = .running ∧
      (atTurn testImage quietInputs .mode (inMode .loc)).modeCtl.mode ≠ .auto ∧
      (after (.controlTick quietInputs) (inMode .loc)).modeCtl.mode = .auto ∧
      haltInForce (ordered { testOrder with halt := true } (inMode .loc)) = true ∧
      (atTurn testImage { quietInputs with stormInput := true } .mode served).modeCtl.mode ≠ .storm ∧
      (after (.controlTick { quietInputs with stormInput := true }) served).modeCtl.mode = .storm ∧
      (atTurn testImage { quietInputs with stormInput := true } .mode served).modeCtl.save = none ∧
      (after (.controlTick { quietInputs with maintKey := true }) (claiming .want .granted served)).modeCtl.mode = .maint ∧
      (claiming .want .granted served).grant.moveState ≠ .still ∧
      (after (.controlTick quietInputs) (inMode .storm)).modeCtl.mode = .storm := by decide +kernel

/-- The turn of the Mode Controller: no change; LOCAL turned to AUTO with a plan action pending; MAINT turned to LOCAL with a bypass claim moving;
AUTO turned to STORM with a claim in WARN and to MAINT with one moving. -/
theorem witness_ControlTickSamplesInputs_turn :
    (afterTurn testImage quietInputs .mode served).modeCtl.mode = (atTurn testImage quietInputs .mode served).modeCtl.mode ∧
      (atTurn testImage quietInputs .mode (awaiting (inMode .loc))).order.deferred = true ∧
      (afterTurn testImage quietInputs .mode (awaiting (inMode .loc))).plan.state = .running ∧
      (atTurn testImage { quietInputs with localKey := true } .mode (claiming .moving .bypass (inMode .maint))).modeCtl.mode = .maint ∧
      (afterTurn testImage { quietInputs with localKey := true } .mode (claiming .moving .bypass (inMode .maint))).modeCtl.mode = .loc ∧
      (atTurn testImage { quietInputs with stormInput := true } .mode (claiming .warn .granted served)).grant.moveState = .warn ∧
      (afterTurn testImage { quietInputs with stormInput := true } .mode (claiming .warn .granted served)).modeCtl.mode = .storm ∧
      (afterTurn testImage { quietInputs with maintKey := true } .mode (claiming .moving .granted served)).modeCtl.mode = .maint := by
  decide +kernel

/-- The orders of the Target Unit's cases: an opening to track, and plan 3. -/
def tracking : State := ordered { testOrder with kind := .opening, value := 3000 } (openAt 2005 served)
def stepping (i : Nat) : State := ordered { testOrder with plan := some 3 } (planned .running (some i) (openAt 2005 served))

/-- A serving station in STORM, and in each of the other modes; with no order, with one to track, with a step, and with a plan between two steps. -/
theorem witness_StormTargetsTheSill :
    Serving (inMode .storm) testImage ∧ (inMode .storm).modeCtl.mode = .storm ∧
      (after (.controlTick quietInputs) (inMode .storm)).modeCtl.mode = .storm ∧
      (atTurn testImage { quietInputs with localKey := true } .target served).modeCtl.mode = .loc ∧
      (atTurn testImage { quietInputs with maintKey := true } .target served).modeCtl.mode = .maint ∧
      (atTurn testImage quietInputs .target (inMode .fault)).modeCtl.mode = .fault ∧
      (atTurn testImage quietInputs .target served).order.adopted = none ∧
      orderApplies (atTurn testImage quietInputs .target tracking) = true ∧
      orderApplies (atTurn testImage quietInputs .target (ordered { testOrder with mask := 0 } served)) = false ∧
      (atTurn testImage quietInputs .target (stepping 21)).plan.current = some 21 ∧ (stepAt testImage 21).kind = .orderPct ∧
      (stepAt testImage 22).kind = .order ∧ (stepAt testImage 20).kind = .closed ∧ (stepAt testImage 19).kind = .empty ∧
      (atTurn testImage quietInputs .target (stepping 21)).plan.state = .running := by decide +kernel

/-- The table of station 7 in the worked example of section 3.4, with its own key (412, 17). -/
def workedTable : State :=
  let row (f : Freshness) (m : MoveState) (ticket : Nat) (isolated available : Bool) (number : Nat) : TableRow :=
    { age := 0
      content := some
        { freshness := f, period := 500, moveState := m, ticket := ticket, available := available, isolated := isolated, opening := 0
          upLevel := none, upOwn := false, dnLevel := none, dnOwn := false, keyNumber := number, keyOrigin := 17 } }
  let s := State.initial .power false 7
  s.withPeers
    { s.peers with
      rows :=
        [row .fresh .still 0 false true 412, row .stale .moving 4 false true 412, row .fresh .want 6 false true 412,
          row .fresh .warn 0 false false 412, row .lost .moving 3 false true 411, row .stale .want 7 false true 412,
          row .fresh .still 0 false true 412, .initial, row .fresh .warn 0 true false 412] ++ List.replicate 7 .initial }

/-- Section 3.4: the highest ticket is 7, the movers are 1 and 3, the wanter is 2, and the sharers are 0, 2 and 6. -/
theorem test_worked_lookups :
    highestTicket workedTable = 7 ∧ (movers workedTable).map (·.1) = [1, 3] ∧ (wanters workedTable).map (·.1) = [2] ∧
      sharers { testOrder with number := 412, origin := 17 } workedTable = [0, 2, 6] ∧
      rowsWhere workedTable (fun n r => decide (IsMover r ∨ (IsWanter r ∧ LowerKey workedTable n r))) = [1, 3] := by decide +kernel

/-- Station 2 in AUTO off its target, with a claim. -/
def offTarget (m : MoveState) (k : MoveKind) : State :=
  let s := claiming m k (openAt 2005 served)
  s.withTarget { s.target with offTarget := true }

/-- Two peers that move. -/
def crowded (s : State) : State :=
  hearing 1 { peerFrame with moveState := .moving } (hearing 3 { peerFrame with moveState := .warn } s)

/-- A claim in WANT that is withdrawn, that enters WARN, and that stays; claims in WARN that are withdrawn, that yield, that start to move and that
wait for the pump; claims at a tick in each move state, at the ends of their timers and at the end of motion. -/
theorem witness_ClaimAdvancesAtItsTimers :
    Serving (offTarget .want .granted) testImage ∧ (offTarget .want .granted).grant.moveState = .want ∧
      (offTarget .want .granted).grant.announceTimer = some 0 ∧
      ((offTarget .want .granted).withTarget served.target).target.offTarget = false ∧ (offTarget .want .granted).target.offTarget = true ∧
      admission testImage (offTarget .want .granted) = .throughGrant ∧
      claimants (offTarget .want .granted) < testImage.params.moveLimit ∧
      testImage.params.moveLimit ≤ claimants (crowded (offTarget .want .granted)) ∧
      (offTarget .warn .granted).grant.moveState = .warn ∧ (offTarget .warn .granted).grant.warnTimer = some 0 ∧
      (offTarget .warn .granted).grant.moveKind ≠ .bypass ∧
      admission testImage (ordered { testOrder with halt := true } (offTarget .warn .granted)) ≠ .throughGrant ∧
      testImage.params.moveLimit ≤ yieldCount (crowded (offTarget .warn .granted)) ∧
      yieldCount (offTarget .warn .granted) < testImage.params.moveLimit ∧ (offTarget .warn .bypass).grant.moveKind = .bypass ∧
      (offTarget .warn .granted).grant.pumpTimer.getD 0 < testImage.params.pumpWait * 1000 ∧
      served.clocks.grantAhead < 60 ∧ (atTurn testImage quietInputs .grant tracking).target.offTarget = true ∧
      (atTurn testImage quietInputs .grant tracking).grant.moveState = .still ∧
      (atTurn testImage quietInputs .grant tracking).modeCtl.mode = (after (.controlTick quietInputs) tracking).modeCtl.mode ∧
      admission testImage (atTurn testImage quietInputs .grant tracking) = .throughGrant ∧
      admission testImage (atTurn testImage { quietInputs with maintKey := true } .grant tracking) = .bypass 0 ∧
      (atTurn testImage quietInputs .grant (claiming .want .granted tracking)).grant.announceTimer = some 60 ∧
      (atTurn testImage quietInputs .grant (claiming .warn .granted tracking)).grant.warnTimer = some 60 ∧
      (atTurn testImage quietInputs .grant (claiming .moving .granted tracking)).drive.setpoint ≠
        (atTurn testImage quietInputs .grant (claiming .moving .granted tracking)).target.effective * 1000 ∧
      (atTurn testImage quietInputs .grant (setpointToOpening (claiming .moving .granted (openAt 2005 served)))).drive.setpoint =
        (atTurn testImage quietInputs .grant (setpointToOpening (claiming .moving .granted (openAt 2005 served)))).target.effective * 1000 := by
  decide +kernel

/-- Station 2 with plan 3 RUNNING in DWELL at a step. -/
def dwelling (i : Nat) (latch request : Bool) : State :=
  let s := planned .running (some i) served
  let p := s.withPlan { s.plan with phase := .dwell, dwell := 60, finishAtHold := request }
  p.withTide { p.tide with latch := latch }

/-- Step 20 with TIDE_WAIT and an empty latch, step 24 LAST with the latch set, step 22 HOLD_POINT with a request, step 21 with the next step queued; at a tick a
step in AIM, in DWELL with 61 ms and with 60 ms left, and in TIDE. -/
theorem witness_ExpiredDwellPassesToTide :
    Serving (dwelling 20 false false) testImage ∧ (dwelling 20 false false).plan.state = .running ∧ (dwelling 20 false false).plan.phase = .dwell ∧
      (dwelling 20 false false).plan.current = some 20 ∧ haltInForce (dwelling 20 false false) = false ∧
      (stepAt testImage 20).tideWait = true ∧ (dwelling 20 false false).tide.latch = false ∧ (stepAt testImage 24).last = true ∧
      (dwelling 24 true false).tide.latch = true ∧ (stepAt testImage 22).tideWait = false ∧ (stepAt testImage 22).last = false ∧
      (stepAt testImage 22).holdPoint = true ∧ (dwelling 22 false true).plan.finishAtHold = true ∧
      (stepAt testImage 21).last = false ∧ (stepAt testImage 21).holdPoint = false ∧ (stepAt testImage 21).tideWait = false ∧
      (after .dwellExpired ((dwelling 21 false false).withPlan { (dwelling 21 false false).plan with queue := [22, 23], interp := { Interp.cleared with ended := true } })).plan.current =
        some 22 ∧
      served.clocks.planAhead < 60 ∧ (atTurn testImage quietInputs .plan (stepping 21)).plan.phase = .aim ∧
      (atTurn testImage quietInputs .plan (stepping 21)).plan.aimJudged = true ∧
      (atTurn testImage quietInputs .plan (dwelling 21 false false)).plan.dwell = 60 ∧
      60 < ((dwelling 21 false false).withPlan { (dwelling 21 false false).plan with dwell := 61 }).plan.dwell ∧
      (atTurn testImage quietInputs .plan (dwelling 21 false false)).modeCtl.mode = (after (.controlTick quietInputs) (dwelling 21 false false)).modeCtl.mode := by
  decide +kernel

/-- A step whose dwell runs out at this tick, and which the next one follows. -/
theorem witness_StepPassesOn : StepPassesOn testImage (atTurn testImage quietInputs .plan (dwelling 21 false false)) :=
  ⟨by decide +kernel, by decide +kernel, ⟨21, by decide +kernel⟩, by decide +kernel⟩

/-- R43, R133: a step that is followed by one of the same index is a change of step index, and is reported at once with the gap over. -/
theorem test_same_step_reported :
    let s := (dwelling 21 false false).withPlan
      { (dwelling 21 false false).plan with queue := [21], interp := { Interp.cleared with ended := true } }
    s.line.stateSlot = none ∧ (after .dwellExpired s).plan.current = s.plan.current ∧ (after .dwellExpired s).plan.phase = .aim ∧
      (after .dwellExpired s).line.stateSlot.isSome := by decide +kernel

/-- Station 2 in STORM with its clear timer running, a save held and a bypass claim. -/
def clearing (key : Bool) : State :=
  let s := claiming .moving .bypass (inMode .storm)
  s.withModeCtl
    { s.modeCtl with stormClear := some 0, localKey := key, save := some { planContext (planned .running (some 22) served) with dwell := 60 } }

/-- A STORM that clears into AUTO and into LOCAL, with a bypass claim moving and a plan saved RUNNING at a step; into AUTO with no action pending and with
HALT in force; into AUTO with an action pending; into MAINT; a plan saved between two steps, HELD and ended. -/
theorem witness_StormEndRestoresSave :
    Serving (clearing true) testImage ∧ (clearing true).modeCtl.mode = .storm ∧ (clearing true).modeCtl.stormClear = some 0 ∧
      keyMode (clearing true) = .loc ∧ keyMode (clearing false) = .auto ∧ (clearing true).grant.moveKind = .bypass ∧
      underWay (clearing true).grant.moveState = true ∧ (clearing true).modeCtl.save.isSome ∧ (clearing false).order.deferred = false ∧
      haltInForce (ordered { testOrder with halt := true } (clearing false)) = true ∧ haltInForce (clearing false) = false ∧
      (clearing false).modeCtl.save.map (fun c => (c.state, c.current)) = some (.running, some 22) ∧
      (refillLoop testImage refillFuel
        { (planned .running (some 22) served).plan with queue := [23, 21, 22, 23, 21, 22, 23, 21] }).isSome ∧
      (planContext (planned .running none served)).current = none ∧ (planContext (planned .held (some 22) served)).state = .held ∧
      ¬ PlanLive (planContext (planned .ended none served)).state ∧ (awaiting (clearing false)).order.deferred = true ∧
      keyMode (awaiting (clearing false)) = .auto ∧
      keyMode ((clearing true).withModeCtl { (clearing true).modeCtl with maintKey := true }) = .maint := by decide +kernel

/-- The last millisecond of the last day. -/
theorem witness_WeirClockTurnsTheDay :
    (served.withOrder { served.order with clockMs := 86399999, clockDay := 65535 }).loader.inReset = false ∧
      (served.withOrder { served.order with clockMs := 86399999, clockDay := 65535 }).order.clockMs < 86400000 := by decide +kernel

/-- The refill of plan 3 at its start; a cursor inside its group and at its end; codes 1, 2, 3, 4, 5, 6, 7 and 0 of the test image; a stack that is full and one that
is empty; the spin limit and the last address. -/
theorem witness_RefillRunsToItsEnd :
    ((refillLoop testImage refillFuel { served.plan with interp := { Interp.cleared with codePtr := 10 } }).map (·.queue)) =
        some [20, 21, 22, 23, 21, 22, 23, 21] ∧
      (stepAt testImage 20).kind ≠ .empty ∧ (stepAt testImage 19).kind = .empty ∧ (20 : Nat) ≤ 127 ∧ (21 : Nat) < 23 ∧
      served.plan.interp.cursor = none ∧ served.plan.interp.spin < 32 ∧ (63 : Nat) ≤ 63 ∧
      [10, 11, 50, 13, 14, 41, 15, 63].map (fun a => testImage.codes[a]?.map (·.op)) =
        [some 1, some 2, some 3, some 4, some 5, some 6, some 7, some 0] ∧
      served.plan.interp.loops = [] ∧ served.plan.interp.calls = [] ∧
      refillLoop testImage refillFuel { served.plan with interp := { Interp.cleared with codePtr := 0 } } = none := by decide +kernel

/-- One station, and the lowest and highest ranks of sixteen. -/
theorem witness_SharesAddUpToOrder :
    (0 : Nat) < 1 ∧ (0 : Nat) < 15 ∧ (15 : Nat) < 16 := by decide

/-- Neighbours at 1300 and 1700, at the two ends that 2 × SPREAD allows, and one further apart. -/
theorem witness_ClampKeepsWithinSpread :
    (∀ p ∈ [1300, 1700], p ≤ testImage.params.openMax) ∧ (∀ p ∈ [1000, 1800], ∀ q ∈ [1000, 1800], p ≤ q + 2 * testImage.params.spread) ∧
      (1571 ≤ testImage.params.openMax) ∧ (∀ p ∈ [1300, 1700], 1571 ≤ p + testImage.params.spread ∧ p ≤ 1571 + testImage.params.spread) ∧
      (∀ x ∈ [1000, 1800], 1000 ≤ x ∧ x ≤ 1800) ∧ 1800 ≤ 1000 + 2 * testImage.params.spread ∧
      (∀ x ∈ [1000, 1801], 1000 ≤ x ∧ x ≤ 1801) ∧ 1000 + 2 * testImage.params.spread < 1801 := by decide

/-- Setpoints on, above and below the goal; a null trim at each end; commands toward a sampled limit and away from it; a tick in MOVING and one outside it; a
skew at SKEW_TRIP and beyond it, with both sides good, and a side that is not good. -/
theorem witness_DriveKeepsItsLimits :
    (5 : Nat) ≤ 5 ∧ (-200 : Int) ≤ -200 ∧ (200 : Int) ≤ 200 ∧ (-1000 : Int) ≤ 1000 ∧
      (0 : Int) < max (-1000) (min 1000 (500 - 21)) ∧ max (-1000) (min 1000 (-500 - 21)) ≤ (0 : Int) ∧
      served.clocks.driveAhead < 60 ∧ (atTurn testImage quietInputs .drive (claiming .moving .granted tracking)).grant.moveState = .moving ∧
      (after (.controlTick { quietInputs with readbackL := 32720, readbackR := 32796 }) (claiming .moving .granted tracking)).modeCtl.mode =
        (atTurn testImage { quietInputs with readbackL := 32720, readbackR := 32796 } .drive (claiming .moving .granted tracking)).modeCtl.mode ∧
      (after (.controlTick quietInputs) (claiming .moving .granted tracking)).grant.moveState = .moving ∧
      (atTurn testImage quietInputs .drive tracking).grant.moveState ≠ .moving ∧
      bothGood (atTurn testImage quietInputs .drive tracking) = true ∧
      testImage.params.skewTrip < (tracking.withPosition { tracking.position with skew := -41 }).position.skew.natAbs ∧
      ¬ testImage.params.skewTrip < (tracking.withPosition { tracking.position with skew := -40 }).position.skew.natAbs ∧
      condition .skew tracking = false ∧ hasFault .skew tracking.modeCtl.latched = false ∧ canFault tracking.modeCtl.mode = true ∧
      bothGood (atTurn testImage quietInputs .drive served) = false := by decide +kernel

/-- A serving station at rest, with an event waiting, and its step. -/
theorem witness_EveryStepKeepsGateSound :
    GateSound (served.withDrive { served.drive with codeL := 8180, codeR := 8199 }) ∧ StartSound served ∧
      (∃ t, step (served.withPending [.weirClockDay]) = .next t) := by
  refine ⟨⟨?_, ?_, ?_, ?_, ?_⟩, ?_, _, rfl⟩ <;> decide +kernel

/-- A claim of each kind in each mode that it may stand in, one of each in a mode that it may not, and a claim in FAULT. -/
theorem test_claim_in_mode :
    ClaimInMode .auto (claiming .want .granted served).grant ∧ ClaimInMode .loc (claiming .moving .granted served).grant ∧
      ClaimInMode .storm (claiming .warn .bypass served).grant ∧ ClaimInMode .maint (claiming .moving .bypass served).grant ∧
      ¬ ClaimInMode .storm (claiming .warn .granted served).grant ∧ ¬ ClaimInMode .auto (claiming .moving .bypass served).grant ∧
      ClaimInMode .fault served.grant ∧ ¬ ClaimInMode .fault (claiming .want .granted served).grant := by
  refine ⟨?_, ?_, ?_, ?_, ?_, ?_, ?_, ?_⟩ <;> decide +kernel

/-- A serving station. -/
theorem witness_EveryStepKeepsModeSound :
    ModeSound served ∧ ∃ t, step (served.withPending [.alone]) = .next t := ⟨by decide +kernel, _, rfl⟩

/-- A serving station. -/
theorem witness_EveryStepKeepsPlanSound :
    PlanSound served ∧ ModeSound served ∧ ∃ t, step (served.withPending [.gapEnd]) = .next t := by
  refine ⟨⟨?_, ?_, ?_, ?_, ?_, ?_, ?_⟩, ?_, _, rfl⟩ <;> decide +kernel

/-- A serving station. -/
theorem witness_EveryStepKeepsLineSound :
    PeersSound served ∧ LineSound served ∧ PositionSound served ∧ StartSound served := by
  refine ⟨by decide +kernel, ⟨fun f h => ?_, fun r h => ?_, by decide +kernel, by decide +kernel, by decide +kernel, by decide +kernel⟩,
    by decide +kernel, by decide +kernel⟩
  · exact nomatch (show (none : Option OutFrame) = some (.state f) from h)
  · exact nomatch (show (none : Option OutFrame) = some (.tide r) from h)

/-- Station 2 in FAULT with a STALL that has ended. -/
def stalled : State := (inMode .fault).withModeCtl { (inMode .fault).modeCtl with latched := onlyFault .stall }

/-- A CLEAR_FAULT from console 17 takes the station out of FAULT. -/
theorem witness_OnlyClearOrResetLeavesFault :
    StartSound stalled ∧ stalled.modeCtl.mode = .fault ∧ (after (.clearFault 17 2 0 1) stalled).modeCtl.mode ≠ .fault := by decide +kernel

end Sys2Proof.Tests
end

