-- ==== Sys2Proof/Proofs/GatePosition.lean ====
section
/-! SUPPORT. The geometry table and the side opening read from it (R6, R182): a nondecreasing table read by floor interpolation. -/

namespace Sys2Proof.Proofs

open Sys2Proof.Machine

/-! ### The table of an accepted image -/

@[simp] theorem halvesOf_length (n : Nat) (bs : List Byte) : (halvesOf n bs).length = n := by
  induction n generalizing bs with
  | zero => rfl
  | succ n ih => simp only [halvesOf, List.length_cons, ih]

/-- The recursive check of neighbouring points is the library's chain of `≤`. -/
theorem nondecreasing_iff_isChain (t : List Nat) : nondecreasing t = true ↔ t.IsChain (· ≤ ·) := by
  induction t with
  | nil => simp [nondecreasing]
  | cons a t ih =>
    cases t with
    | nil => simp [nondecreasing]
    | cons b rest => simp only [nondecreasing, Bool.and_eq_true, decide_eq_true_eq, List.isChain_cons_cons, ih]

theorem geometryGood_iff (t : List Nat) : geometryGood t = true ↔ (∀ x ∈ t, x ≤ 12000) ∧ nondecreasing t = true := by
  simp only [geometryGood, Bool.and_eq_true, List.all_eq_true, decide_eq_true_eq]

/-- The one way an image is accepted: the check word and every check of its content pass (R182). -/
theorem checkedImage_eq_some {strap : Nat} {bs : List Byte} {img : Image} (h : checkedImage strap bs = some img) :
    imageCheckWordGood bs = true ∧ contentGood strap (rawImageOf bs) = true ∧ img = imageOf (rawImageOf bs) := by
  unfold checkedImage at h
  split at h
  · next good =>
    obtain ⟨word, content⟩ := Bool.and_eq_true_iff.mp good
    exact ⟨word, content, (Option.some.inj h).symm⟩
  · cases h

theorem geometryGood_of_contentGood {strap : Nat} {r : RawImage} (h : contentGood strap r = true) : geometryGood r.geometry = true := by
  simp only [contentGood, Bool.and_eq_true] at h
  tauto

/-- The table is the seventeen halves at offset 113 of the image (R188), passed by the geometry check. -/
theorem checkedImage_geometry {strap : Nat} {bs : List Byte} {img : Image} (h : checkedImage strap bs = some img) :
    img.geometry.length = 17 ∧ nondecreasing img.geometry = true ∧ ∀ x ∈ img.geometry, x ≤ 12000 := by
  obtain ⟨-, content, rfl⟩ := checkedImage_eq_some h
  obtain ⟨bounded, sorted⟩ := (geometryGood_iff _).mp (geometryGood_of_contentGood content)
  exact ⟨halvesOf_length 17 _, sorted, bounded⟩

/-! ### Reading a table -/

/-- The points of a nondecreasing table do not fall from one index to any later one. -/
theorem getD_le_getD_of_nondecreasing {t : List Nat} (h : nondecreasing t = true) {i j : Nat} (hij : i ≤ j) (hj : j < t.length) :
    t.getD i 0 ≤ t.getD j 0 := by
  have pairwise := List.isChain_iff_pairwise.mp ((nondecreasing_iff_isChain t).mp h)
  rcases Nat.eq_or_lt_of_le hij with rfl | lt
  · exact Nat.le_refl _
  · rw [List.getD_eq_getElem _ _ (lt.trans hj), List.getD_eq_getElem _ _ hj]
    exact List.pairwise_iff_getElem.mp pairwise i j (lt.trans hj) hj lt

/-- The floor of a share `r / 4096` of a length stays within the length. -/
theorem mul_mod_div_le (d c : Nat) : d * (c % 4096) / 4096 ≤ d :=
  Nat.div_le_of_le_mul (by rw [Nat.mul_comm 4096]; exact Nat.mul_le_mul_left d (by omega))

/-- The side opening does not fall below the point at or before the count. -/
theorem point_le_interpolate (t : List Nat) (c : Nat) : t.getD (c / 4096) 0 ≤ interpolate t c := Nat.le_add_right _ _

/-- The side opening does not pass the next point, which the table does not place below the one before it. -/
theorem interpolate_le_next {t : List Nat} {c : Nat} (h : t.getD (c / 4096) 0 ≤ t.getD (c / 4096 + 1) 0) :
    interpolate t c ≤ t.getD (c / 4096 + 1) 0 := by
  have share := mul_mod_div_le (t.getD (c / 4096 + 1) 0 - t.getD (c / 4096) 0) c
  unfold interpolate
  omega

theorem interpolate_of_boundary (t : List Nat) {c : Nat} (h : c % 4096 = 0) : interpolate t c = t.getD (c / 4096) 0 := by
  simp only [interpolate, h, Nat.mul_zero, Nat.zero_div, Nat.add_zero]

theorem interpolate_of_flat {t : List Nat} {c : Nat} (h : t.getD (c / 4096 + 1) 0 = t.getD (c / 4096) 0) :
    interpolate t c = t.getD (c / 4096) 0 := by
  simp only [interpolate, h, Nat.sub_self, Nat.zero_mul, Nat.zero_div, Nat.add_zero]

/-- The largest count reads 4095 of the last segment's 4096 parts, so the last point of a rising segment is not reached. -/
theorem interpolate_largest_lt {t : List Nat} (h : t.getD 15 0 < t.getD 16 0) : interpolate t 65535 < t.getD 16 0 := by
  change t.getD 15 0 + (t.getD 16 0 - t.getD 15 0) * 4095 / 4096 < t.getD 16 0
  omega

/-- Settles O10: an accepted image passed the geometry check, and the points of a nondecreasing table bound what is read between them. -/
theorem sideOpeningLiesInSegment : Obligations.SideOpeningLiesInSegment := by
  refine ⟨fun _ _ _ => checkedImage_geometry, fun t c len sorted hc => ?_⟩
  have monotone {i j : Nat} (hij : i ≤ j) (hj : j ≤ 16) : t.getD i 0 ≤ t.getD j 0 :=
    getD_le_getD_of_nondecreasing sorted hij (by omega)
  have segment : c / 4096 + 1 ≤ 16 := by omega
  have lower := point_le_interpolate t c
  have upper := interpolate_le_next (monotone (Nat.le_succ (c / 4096)) segment)
  exact ⟨rfl, lower, upper, interpolate_of_boundary t, interpolate_of_flat, interpolate_largest_lt,
    (monotone (Nat.zero_le _) (by omega)).trans lower, upper.trans (monotone segment le_rfl)⟩

end Sys2Proof.Proofs
end

