-- ==== Sys2Proof/Proofs/Commands.lean ====
section
/-! SUPPORT. A COMMAND frame from its arrival to its end: how it is answered (R62, R63), and the reset that answers nothing (R68, R180). -/

namespace Sys2Proof.Proofs

open Sys2Proof.Machine Sys2Proof.Safety

/-! ### The three events -/

theorem exec_finishAtHold (source target argument tag : Byte) (s : State) :
    exec (.finishAtHold source target argument tag) s =
      .next (concludeEvent s (command source target tag codeFinishAtHold 1 doFinishAtHold s)) := rfl

theorem exec_tideEvent (source target argument tag : Byte) (s : State) :
    exec (.tideEvent source target argument tag) s =
      .next (concludeEvent s (command source target tag codeTideEvent 1 (doTideEvent argument.toNat) s)) := rfl

theorem exec_restart (source target argument tag : Byte) (straps : BitVec 4) (s : State) :
    exec (.restart source target argument tag straps) s =
      .next (concludeEvent s (arrival source
        (addressed source.toNat target.toNat
          (authorised source.toNat tag.toNat codeRestart 3 (fun _ t => doRestart straps t))) s)) := rfl

/-! ### The answer at the end of an event (R43, R63) -/

/-- An answer sets the mark, so a report built at the end of the event carries it. -/
theorem answered_concludeEvent (source tag : Byte) (code : Nat) (result : CommandResult) (s u : State) :
    Answered source tag code result (concludeEvent s (answer source.toNat tag.toNat code result u)) := by
  refine ⟨by rw [concludeEvent_order, answer_eq], ?_⟩
  rcases concludeEvent_mark (s := s) (t := answer source.toNat tag.toNat code result u) rfl with mark | slot
  · exact .inl mark
  · exact .inr ⟨_, slot, rfl, rfl, rfl, rfl⟩

/-- Besides the answer, the end of the event changes the line alone. -/
theorem concludeEvent_answer_frame (source tag : Byte) (code : Nat) (result : CommandResult) (s u : State) :
    concludeEvent s (answer source.toNat tag.toNat code result u) =
      { u with
        order := answeredOrder u.order source tag code result
        line := (concludeEvent s (answer source.toNat tag.toNat code result u)).line } :=
  concludeEvent_eq s (answer source.toNat tag.toNat code result u)

/-- Of the line, an answer and the report that may follow it touch what any report may touch. -/
theorem concludeEvent_answer_reported (source tag : Byte) (code : Nat) (result : CommandResult) (s u : State) :
    Reported u.line (concludeEvent s (answer source.toNat tag.toNat code result u)).line :=
  concludeEvent_reported s (answer source.toNat tag.toNat code result u)

/-! ### RESTART (R68) -/

/-- With the line not working (R179) an event ends with no mark and no report. -/
theorem concludeEvent_of_not_lineWorks {t : State} (s : State) (h : lineWorks t = false) : concludeEvent s t = t := by
  have unmarked : markChanges s t = t := by simp only [markChanges, h, Bool.false_and, Bool.or_false]; rfl
  have notDue : reportDue t = false := by simp only [reportDue, h, Bool.false_and]
  simp only [concludeEvent, serveReports, unmarked, notDue, Bool.false_eq_true, if_false]

/-- Every kind of reset brings every block to the initial state of its chapter (R180), whatever events wait. -/
theorem atReset_initial (cause : RestartCause) (lasts : Bool) (straps : Nat) (queue : List Instr) :
    AtReset ((State.initial cause lasts straps).withPending queue) := by
  repeat' constructor

/-- A frame for this station, or for every station, from a console: refused below the level of its command, else handed on (R62). -/
theorem arrival_of_commandReaches {img : Image} {source target : Byte} {s : State} (tag : Byte) (code level : Nat)
    (f : Image → State → State) (h : CommandReaches s source target) (hi : acceptedImage s = some img) :
    arrival source (addressed source.toNat target.toNat (authorised source.toNat tag.toNat code level f)) s =
      if authorityOf img source.toNat < level then answer source.toNat tag.toNat code .refusedAuthority (frameArrives s)
      else f img (frameArrives s) := by
  obtain ⟨receives, fromConsole, validSource, forStation⟩ := h
  rw [arrival_of_receiving _ receives validSource, addressed_of_own _ (frameArrives s) fromConsole forStation]
  split
  · next low => exact authorised_of_low _ (s := frameArrives s) hi low
  · next high => exact authorised_of_level _ (s := frameArrives s) hi (Nat.le_of_not_lt high)

/-- Settles O4: a reset leaves the line not working, so the initial state stands at the end of the event; a refusal is an answer like any
other. -/
theorem restartResetsStation : Obligations.RestartResetsStation := by
  intro source target argument tag straps s img reaches accepted
  have arrives := arrival_of_commandReaches tag codeRestart 3 (fun _ t => doRestart straps t) reaches accepted
  refine ⟨fun high => ?_, fun low => ?_⟩
  · rw [exec_restart, arrives, if_neg (Nat.not_lt.mpr high), concludeEvent_of_not_lineWorks s rfl]
    exact ⟨_, rfl, atReset_initial .restart false straps.toNat s.pending, rfl, rfl, rfl, rfl, rfl, rfl, rfl, rfl, rfl⟩
  · rw [exec_restart, arrives, if_pos low]
    exact ⟨_, rfl, answered_concludeEvent .., concludeEvent_answer_frame .., concludeEvent_answer_reported ..⟩

/-! ### FINISH_AT_HOLD and TIDE_EVENT (R65, R27) -/

theorem doFinishAtHold_of_running {s : State} (h : s.plan.state = .running) :
    doFinishAtHold s = ({ s with plan := { s.plan with finishAtHold := true } }, .done) := if_pos h

theorem doFinishAtHold_of_not_running {s : State} (h : s.plan.state ≠ .running) : doFinishAtHold s = (s, .refusedState) := if_neg h

/-- The result of R27: the argument 1 asks for OPEN, 2 for CLOSE, any other is unknown; a window that stands there refuses. -/
theorem doTideEvent_result (argument : Nat) (s : State) :
    (doTideEvent argument s).2 =
      if argument = 1 then (if s.tide.window = .opened then .refusedState else .done)
      else if argument = 2 then (if s.tide.window = .closed then .refusedState else .done)
      else .unknown := by
  match argument with
  | 0 => rfl
  | 1 => exact apply_ite Prod.snd ..
  | 2 => exact apply_ite Prod.snd ..
  | n + 3 => rfl

/-- Settles O31, by the authority of the console and, for FINISH_AT_HOLD, the state of the plan. -/
theorem finishAtHoldSetsRequest : Obligations.FinishAtHoldSetsRequest := by
  intro source target argument tag s img reaches accepted
  rw [exec_finishAtHold, exec_tideEvent]
  rcases Nat.lt_or_ge (authorityOf img source.toNat) 1 with low | high
  · rw [command_refused _ reaches accepted low, command_refused _ reaches accepted low, if_pos low, if_pos low]
    exact ⟨⟨_, _, rfl, answered_concludeEvent .., rfl, concludeEvent_answer_frame .., concludeEvent_answer_reported ..⟩,
      _, rfl, answered_concludeEvent ..⟩
  · rw [command_carried_out _ reaches accepted high, command_carried_out _ reaches accepted high,
      if_neg (Nat.not_lt.mpr high), if_neg (Nat.not_lt.mpr high), doTideEvent_result]
    refine ⟨?_, _, rfl, answered_concludeEvent ..⟩
    by_cases running : s.plan.state = .running
    · rw [doFinishAtHold_of_running (s := frameArrives s) running, if_pos running]
      exact ⟨_, _, rfl, answered_concludeEvent .., rfl, concludeEvent_answer_frame .., concludeEvent_answer_reported ..⟩
    · rw [doFinishAtHold_of_not_running (s := frameArrives s) running, if_neg running]
      exact ⟨_, _, rfl, answered_concludeEvent .., rfl, concludeEvent_answer_frame .., concludeEvent_answer_reported ..⟩

end Sys2Proof.Proofs
end

section
/-! SUPPORT. Every event as its effects followed by the end that all events share, what of it acts while the line does not work, and the
step (O1, O2). -/

namespace Sys2Proof.Proofs

open Sys2Proof.Machine Sys2Proof.Safety

/-- The effects of an event, before the mark and the report that every event ends with (log 13). -/
def effect (i : Instr) : State → State :=
  match i with
  | .powerOnReset supply => beginReset supply
  | .resetEnd straps => endReset straps
  | .imageReadFailed => failAttempt
  | .imageReadRetry => beginRetry
  | .imageReadComplete bytes inputs upCode downCode => completeRead bytes inputs upCode downCode
  | .controlTick inputs => fun t =>
    match acceptedImage t with
    | some img => takeTick inputs img t
    | none => whileLineWorks (hearLine inputs.line) t
  | .encoderReply request raw verifies => whileAccepted (fun img t => takeReply img request raw verifies t)
  | .replyWindow side => whileAccepted (fun img t => closeWindow img side t)
  | .encFault side => whileAccepted (fun _ t =>
    if encoderFails (encoderOf side t.position) then raise [encoderKind side] t else t)
  | .encRecovery side => whileAccepted (fun _ t => recoverEncoder side t)
  | .levelSample upCode downCode => whileAccepted (fun img t =>
    levelSample img upCode downCode (nextSample (runOn t.clocks.sample Config.sampleMs t)))
  | .levelFault channel => whileAccepted (fun _ t =>
    if channelFails (channelOf channel t.level) then raise [channelKind channel] t else t)
  | .levelRecovery channel => whileAccepted (fun _ t => recoverChannel channel t)
  | .tideQualified => whileAccepted (fun img t => qualifyTide img.params t)
  | .peerAgeing => whileAccepted (fun _ t => ageRows (nextAgeing (runOn t.clocks.age Config.ageMs t)))
  | .orderFrame source payload => fun t =>
    if payload.length = payloadLength kindOrder then arrival source (takeOrderFrame source.toNat payload) t
    else if receiving t then dropAtArrival t else t
  | .resume source target _ tag => command source target tag codeResume 1 doResume
  | .finishAtHold source target _ tag => command source target tag codeFinishAtHold 1 doFinishAtHold
  | .tideEvent source target argument tag => command source target tag codeTideEvent 1 (doTideEvent argument.toNat)
  | .abandon source target _ tag => command source target tag codeAbandon 2 doAbandon
  | .clearFault source target _ tag => command source target tag codeClearFault 2 doClearFault
  | .clearCounts source target _ tag => command source target tag codeClearCounts 2 doClearCounts
  | .restart source target _ tag straps => arrival source
    (addressed source.toNat target.toNat (authorised source.toNat tag.toNat codeRestart 3 (fun _ t => doRestart straps t)))
  | .unknownCommand source target code _ tag => fun t =>
    if isCommandCode code.toNat then t
    else arrival source (addressed source.toNat target.toNat (answer source.toNat tag.toNat code.toNat .unknown)) t
  | .stateFrame source payload => fun t =>
    match stateOfPayload payload with
    | some f => arrival source (takeStateFrame source.toNat f) t
    | none => if receiving t then dropAtArrival t else t
  | .tideFrame source payload => fun t =>
    match tideOfPayload payload with
    | some r => arrival source (takeTideFrame source.toNat r) t
    | none => if receiving t then dropAtArrival t else t
  | .frameDropped what => fun t => if receiving t then dropFrame what t else t
  | .duplicateClear => whileAccepted (fun img t =>
    match t.peers.duplicateTimer with
    | some age =>
      let later := runOn age (10 * img.params.reportPeriod) t
      clearKinds [.duplicate] (later.withPeers { later.peers with duplicateTimer := none })
    | none => t)
  | .alone => whileAccepted (fun img t =>
    if hasPeers img t then raise [.alone] (runOn t.line.lineSilent (10 * img.params.reportPeriod) t) else t)
  | .periodicReport => whileLineWorks reachPeriod
  | .gapEnd => whileLineWorks (fun t => runOn t.line.gapTimer Config.gapMs t)
  | .sendStart => whileLineWorks startSending
  | .lostArbitration bit => whileLineWorks (fun t => if drivenBit bit t = some true then stopSending true t else t)
  | .lineNotFollowing bit => whileLineWorks (fun t => if drivenBit bit t = some false then stopSending false t else t)
  | .frameComplete => whileLineWorks completeFrame
  | .txBlockedTimer => whileLineWorks expireTx
  | .dominantRun => whileLineWorks exceedRun
  | .announceWait => whileAccepted (fun img t =>
    match t.grant.moveState, t.grant.announceTimer with
    | .want, some age => grantAtTick img false (img.params.announceWait - age) t
    | _, _ => t)
  | .warnLead pumpReady => whileAccepted (fun img t =>
    match t.grant.moveState, t.grant.warnTimer with
    | .warn, some age => grantAtTick img pumpReady (t.grant.warnLead - age) t
    | _, _ => t)
  | .pumpWait => whileAccepted (fun img t =>
    match t.grant.pumpTimer with
    | some age => grantAtTick img false (img.params.pumpWait * 1000 - age) t
    | none => t)
  | .valveMismatch side => whileAccepted (fun _ t => if 5 ≤ mismatchOf side t.drive then raise [valveKind side] t else t)
  | .stall => whileAccepted (fun img t =>
    match t.grant.moveState, t.drive.stall with
    | .moving, some w => driveAtTick img (img.params.stallTime * 1000 - w.age) t
    | _, _ => t)
  | .stormClearTime => whileAccepted endStorm
  | .dwellExpired => whileAccepted (fun img t =>
    if t.plan.state = .running ∧ t.plan.phase = .dwell ∧ t.plan.current ≠ none ∧ haltInForce t = false then planAtTick img t
    else t)
  | .weirClockDay => fun t => elapse (Config.dayMs - t.order.clockMs) t
  | .lineIdle => whileLineWorks becomeIdle

/-- Every event is its effects with the end that all events share. -/
theorem exec_eq_effect (i : Instr) (s : State) : exec i s = .next (concludeEvent s (effect i s)) := by
  cases i <;> rfl

theorem exec_eq_next {i : Instr} {s t : State} (h : exec i s = .next t) : t = concludeEvent s (effect i s) := by
  rw [exec_eq_effect] at h
  exact (Host.Outcome.next.inj h).symm

/-- Settles O1: both equations are the definition of the step. -/
theorem stepRunsFrontEvent : Obligations.StepRunsFrontEvent := fun _ _ _ => ⟨rfl, rfl⟩

end Sys2Proof.Proofs
end

section
namespace Sys2Proof.Proofs

open Sys2Proof.Machine Sys2Proof.Safety

/-! ### What the shared forms of an event keep -/

/-- An event that acts while an image is held keeps what its action keeps. -/
theorem whileAccepted_keeps {P : State → Prop} {f : Image → State → State} {s : State} (stays : P s)
    (acts : ∀ img, acceptedImage s = some img → P (f img s)) : P (whileAccepted f s) := by
  unfold whileAccepted
  split
  · next img accepted => exact acts img accepted
  · exact stays

theorem whileLineWorks_keeps {P : State → Prop} {f : State → State} {s : State} (stays : P s)
    (acts : lineWorks s = true → P (f s)) : P (whileLineWorks f s) := by
  unfold whileLineWorks
  split
  · next works => exact acts works
  · exact stays

/-- What a frame's arrival keeps: nothing happens, the frame is dropped, or it is handed on. -/
theorem arrival_keeps {P : State → Prop} {source : Byte} {f : State → State} {s : State} (stays : P s)
    (drops : receiving s = true → P (dropAtArrival s)) (acts : receiving s = true → source.toNat ≤ 23 → P (f (frameArrives s))) :
    P (arrival source f s) := by
  unfold arrival
  split
  · next receives =>
    split
    · exact drops receives
    · next valid => exact acts receives (Nat.le_of_not_lt valid)
  · exact stays

theorem dropUnlessReceiving_keeps {P : State → Prop} {s : State} (stays : P s) (drops : receiving s = true → P (dropAtArrival s)) :
    P (if receiving s then dropAtArrival s else s) := by
  split
  · next receives => exact drops receives
  · exact stays

/-- What a command's address keeps (R62): it is counted, ignored or treated. -/
theorem addressed_keeps {P : State → Prop} {source target : Nat} {f : State → State} {s : State} (stays : P s)
    (counts : P (countError s)) (acts : P (f s)) : P (addressed source target f s) := by
  unfold addressed
  split
  · exact counts
  · split
    · exact acts
    · exact stays

theorem authorised_keeps {P : State → Prop} {source tag code level : Nat} {f : Image → State → State} {s : State}
    (refuses : P (answer source tag code .refusedAuthority s)) (acts : ∀ img, acceptedImage s = some img → P (f img s)) :
    P (authorised source tag code level f s) := by
  unfold authorised
  split
  · exact refuses
  · next img accepted =>
    split
    · exact refuses
    · exact acts img accepted

/-- What a COMMAND frame keeps, from its arrival to its answer (R62). -/
theorem command_keeps {P : State → Prop} {source target tag : Byte} {code level : Nat} {act : State → State × CommandResult} {s : State}
    (stays : P s) (drops : receiving s = true → P (dropAtArrival s)) (arrives : receiving s = true → P (frameArrives s))
    (counts : ∀ t, P t → P (countError t)) (answers : ∀ t result, P t → P (answer source.toNat tag.toNat code result t))
    (acts : ∀ img, receiving s = true → acceptedImage s = some img → P (act (frameArrives s)).1) :
    P (command source target tag code level act s) :=
  arrival_keeps stays drops fun receives _ =>
    addressed_keeps (arrives receives) (counts _ (arrives receives)) <|
      authorised_keeps (answers _ _ (arrives receives)) fun img accepted => answers _ _ (acts img receives accepted)

/-! ### The queue (O2) -/

theorem doResume_pending (s : State) : (doResume s).1.pending = s.pending := by
  unfold doResume; split <;> simp
theorem doFinishAtHold_pending (s : State) : (doFinishAtHold s).1.pending = s.pending := by
  unfold doFinishAtHold; split <;> simp
theorem doTideEvent_pending (argument : Nat) (s : State) : (doTideEvent argument s).1.pending = s.pending := by
  unfold doTideEvent; split <;> [simp; (split <;> simp)]
theorem doAbandon_pending (s : State) : (doAbandon s).1.pending = s.pending := by
  unfold doAbandon; split <;> [simp; (split <;> [simp; (split <;> simp)])]
theorem doClearFault_pending (s : State) : (doClearFault s).1.pending = s.pending := by
  unfold doClearFault; split <;> simp
theorem closeWindow_pending (img : Image) (d : Side) (s : State) : (closeWindow img d s).pending = s.pending := by
  unfold closeWindow; split <;> simp

theorem evalTick_keeps {P : State → Prop} {img : Image} {inputs : TickInputs} {s : State} (stays : P s)
    (evaluates : ∀ b t, P t → P (evalBlock img inputs b t)) : P (evalTick img inputs s) := by
  unfold evalTick
  generalize tickOrder inputs.order = blocks
  induction blocks generalizing s with
  | nil => exact stays
  | cons b bs ih => exact ih (evaluates b s stays)

theorem evalTick_pending (img : Image) (inputs : TickInputs) (s : State) : (evalTick img inputs s).pending = s.pending :=
  evalTick_keeps (P := fun t => t.pending = s.pending) rfl fun b t h => (evalBlock_pending img inputs b t).trans h

theorem takeTick_pending (inputs : TickInputs) (img : Image) (s : State) : (takeTick inputs img s).pending = s.pending := by
  simp [takeTick, evalTick_pending]

theorem completeRead_pending (bytes : List Byte) (inputs : TickInputs) (up dn : Half) (s : State) :
    (completeRead bytes inputs up dn s).pending = s.pending := by
  unfold completeRead
  split
  · dsimp only
    split
    · simp [acceptImage, evalTick_pending]
    · simp
  · rfl

theorem beginRetry_pending (s : State) : (beginRetry s).pending = s.pending := by
  unfold beginRetry; split <;> simp

theorem arrival_pending {source : Byte} {f : State → State} (s : State) (acts : ∀ t, (f t).pending = t.pending) :
    (arrival source f s).pending = s.pending :=
  arrival_keeps (P := fun t => t.pending = s.pending) rfl (fun _ => by simp) fun _ _ => by simp [acts]

theorem addressed_pending {source target : Nat} {f : State → State} (s : State) (acts : ∀ t, (f t).pending = t.pending) :
    (addressed source target f s).pending = s.pending :=
  addressed_keeps (P := fun t => t.pending = s.pending) rfl (by simp) (acts s)

theorem command_pending {source target tag : Byte} {code level : Nat} {act : State → State × CommandResult} (s : State)
    (acts : ∀ t, (act t).1.pending = t.pending) : (command source target tag code level act s).pending = s.pending :=
  command_keeps (P := fun t => t.pending = s.pending) rfl (fun _ => by simp) (fun _ => by simp) (fun _ h => by simpa using h)
    (fun _ _ h => by simpa using h) fun _ _ _ => by simp [acts]

/-- No effect of an event reads or moves the queue. -/
theorem effect_pending (i : Instr) (s : State) : (effect i s).pending = s.pending := by
  have accepted {f : Image → State → State} (h : ∀ img t, (f img t).pending = t.pending) :
      (whileAccepted f s).pending = s.pending :=
    whileAccepted_keeps (P := fun t => t.pending = s.pending) rfl fun img _ => h img s
  have works {f : State → State} (h : ∀ t, (f t).pending = t.pending) : (whileLineWorks f s).pending = s.pending :=
    whileLineWorks_keeps (P := fun t => t.pending = s.pending) rfl fun _ => h s
  have dropped : (if receiving s then dropAtArrival s else s).pending = s.pending :=
    dropUnlessReceiving_keeps (P := fun t => t.pending = s.pending) rfl fun _ => by simp
  cases i <;> simp only [effect]
  case powerOnReset => rfl
  case resetEnd _ => unfold endReset; split <;> rfl
  case imageReadFailed => simp
  case imageReadRetry => exact beginRetry_pending s
  case imageReadComplete _ _ _ _ => exact completeRead_pending ..
  case controlTick inputs =>
    split
    · exact takeTick_pending ..
    · exact works fun t => by simp
  case resume _ _ _ _ => exact command_pending s doResume_pending
  case finishAtHold _ _ _ _ => exact command_pending s doFinishAtHold_pending
  case tideEvent _ _ _ _ => exact command_pending s (doTideEvent_pending _)
  case abandon _ _ _ _ => exact command_pending s doAbandon_pending
  case clearFault _ _ _ _ => exact command_pending s doClearFault_pending
  case clearCounts _ _ _ _ => exact command_pending s fun _ => rfl
  case restart _ _ _ _ _ =>
    refine arrival_pending s fun t => addressed_pending t fun u => ?_
    exact authorised_keeps (P := fun v => v.pending = u.pending) (by simp) fun _ _ => rfl
  case unknownCommand _ _ _ _ _ =>
    split
    · rfl
    · exact arrival_pending s fun t => addressed_pending t fun u => by simp
  case orderFrame _ _ =>
    split
    · exact arrival_pending s fun t => by simp
    · exact dropped
  case stateFrame _ _ =>
    split
    · exact arrival_pending s fun t => by simp
    · exact dropped
  case tideFrame _ _ =>
    split
    · exact arrival_pending s fun t => by simp
    · exact dropped
  case frameDropped what => split <;> simp
  case weirClockDay => simp
  case periodicReport => exact works fun t => by simp
  case gapEnd => exact works fun t => by simp
  case sendStart => exact works fun t => by simp
  case lostArbitration _ => exact works fun t => by split <;> simp
  case lineNotFollowing _ => exact works fun t => by split <;> simp
  case frameComplete => exact works fun t => by simp
  case txBlockedTimer => exact works fun t => by unfold expireTx; (repeat' split) <;> simp
  case dominantRun => exact works fun t => by unfold exceedRun; (repeat' split) <;> simp
  case lineIdle => exact works fun t => by simp
  case encoderReply _ _ _ => exact accepted fun img t => by simp
  case replyWindow side => exact accepted fun img t => closeWindow_pending img side t
  case encFault _ => exact accepted fun img t => by split <;> simp
  case encRecovery _ => exact accepted fun img t => by simp
  case levelSample _ _ => exact accepted fun img t => by simp
  case levelFault _ => exact accepted fun img t => by split <;> simp
  case levelRecovery _ => exact accepted fun img t => by simp
  case tideQualified => exact accepted fun img t => by simp
  case peerAgeing => exact accepted fun img t => by simp
  case duplicateClear => exact accepted fun img t => by split <;> simp
  case alone => exact accepted fun img t => by split <;> simp
  case announceWait => exact accepted fun img t => by split <;> simp [grantAtTick]
  case warnLead _ => exact accepted fun img t => by split <;> simp [grantAtTick]
  case pumpWait => exact accepted fun img t => by split <;> simp [grantAtTick]
  case valveMismatch _ => exact accepted fun img t => by split <;> simp
  case stall => exact accepted fun img t => by split <;> simp [driveAtTick, countFreeSamples]
  case stormClearTime => exact accepted fun img t => by unfold endStorm; split <;> simp
  case dwellExpired => exact accepted fun img t => by split <;> simp [planAtTick]

/-- Settles O2: every event is its effects with the common end, neither of which moves the queue. -/
theorem everyEventCompletes : Obligations.EveryEventCompletes := fun i s =>
  ⟨_, exec_eq_effect i s, by rw [concludeEvent_pending, effect_pending]⟩

end Sys2Proof.Proofs
end

section
/-! SUPPORT. The induction over the events of a station in service, made once: what the shared operations keep, every event keeps. -/

namespace Sys2Proof.Proofs

open Sys2Proof.Machine Sys2Proof.Safety

/-! ### The operations -/

/-- Two states that agree in what the invariants of gate, modes and plan read. -/
abbrev SameCore (s t : State) : Prop :=
  t.loader = s.loader ∧ t.grant = s.grant ∧ t.drive = s.drive ∧ t.plan = s.plan ∧ t.modeCtl = s.modeCtl ∧
    t.order.deferred = s.order.deferred

theorem withPosition_sameCore (s : State) (x : Position) : SameCore s (s.withPosition x) := by simp [SameCore]
theorem withLevel_sameCore (s : State) (x : LevelUnit) : SameCore s (s.withLevel x) := by simp [SameCore]
theorem withPeers_sameCore (s : State) (x : Peers) : SameCore s (s.withPeers x) := by simp [SameCore]
theorem withLine_sameCore (s : State) (x : Line) : SameCore s (s.withLine x) := by simp [SameCore]
theorem withClocks_sameCore (s : State) (x : Clocks) : SameCore s (s.withClocks x) := by simp [SameCore]
theorem withTarget_sameCore (s : State) (x : Target) : SameCore s (s.withTarget x) := by simp [SameCore]
theorem hearLine_sameCore (coming : List LineChange) (s : State) : SameCore s (hearLine coming s) := by simp [SameCore]

/-- A predicate that a level sample keeps: of the Mode Controller a sample moves the level conditions and the storm demand (R15, R154). -/
structure KeptBySample (P : State → Prop) : Prop where
  frame : ∀ {s t}, SameCore s t → P s → P t
  clearLevel : ∀ {s} c, P s → P (clearKinds [channelKind c] s)
  raiseLevel : ∀ {s} ks, (∀ k ∈ ks, k = .levelUp ∨ k = .levelDn) → P s → P (raise ks s)
  setConditions : ∀ {s} order input level, P s → P (setConditions order input level s)

/-- The moves of a claim that the Grant Unit makes at its evaluations, but for those that end it (R91, R95 to R98). -/
inductive ClaimMoves (img : Image) (s : State) : State → Prop
  | want : s.grant.moveState = .still → admission img s = .throughGrant → ClaimMoves img s (enterWant s)
  | bypass (lead : Nat) : s.grant.moveState = .still → admission img s = .bypass lead →
      ClaimMoves img s (setLimited false
        ((enterWarn .bypass lead s).withGrant { (enterWarn .bypass lead s).grant with ticket := 0 }))
  | warn (lead : Nat) : s.grant.moveState = .want → ClaimMoves img s (enterWarn .granted lead s)
  | yields : s.grant.moveState = .warn → s.grant.moveKind ≠ .bypass → ClaimMoves img s (yieldClaim s)
  | pumps : s.grant.moveState = .warn ∨ s.grant.moveState = .moving → ClaimMoves img s (startPump s)
  | pumped : s.grant.moveState = .moving → ClaimMoves img s (s.withGrant { s.grant with pumpTimer := none })
  | moves : s.grant.moveState = .warn → ClaimMoves img s (enterMoving s)

/-- The Drive Unit's evaluation before the kinds it raises: the readback checked, then the drive in MOVING or at rest (R106). -/
def driven (img : Image) (readbackL readbackR : Half) (s : State) : State :=
  (checkReadback img readbackL readbackR s).withDrive
    (if (checkReadback img readbackL readbackR s).grant.moveState == .moving then driveMoving img (checkReadback img readbackL readbackR s)
     else driveHeld (checkReadback img readbackL readbackR s))

theorem evalDrive_eq (img : Image) (readbackL readbackR : Half) (s : State) :
    evalDrive img readbackL readbackR s =
      raise (driveFaults img
          ((checkReadback img readbackL readbackR s).grant.moveState == .moving &&
            stallRunsOut img (driven img readbackL readbackR s).drive.base s.position.opening
              (checkReadback img readbackL readbackR s).drive.stall)
          (driven img readbackL readbackR s))
        (clearSkew img (driven img readbackL readbackR s)) := by
  simp only [evalDrive, driven, checkReadback_position]

/-- A predicate that every shared operation of a station in service keeps. -/
structure KeptInService (P : State → Prop) : Prop extends KeptBySample P where
  elapse : ∀ {s} dt, P s → P (elapse dt s)
  raise : ∀ {s} ks, (∀ k ∈ ks, k ≠ .planBad) → P s → P (raise ks s)
  clear : ∀ {s} ks, (∀ k ∈ ks, k ≠ .config) → P s → P (clearKinds ks s)
  sampleKeys : ∀ {s} maintKey localKey stormInput, P s → P (sampleKeys maintKey localKey stormInput s)
  endStorm : ∀ {s} img, P s → P (endStorm img s)
  standStill : ∀ {s}, P s → P (standStill s)
  haltStop : ∀ {s}, P s → P (haltStop s)
  claim : ∀ {s t} img, ClaimMoves img s t → P s → P t
  drive : ∀ {s} img readbackL readbackR, P s → P (driven img readbackL readbackR s)
  takeStep : ∀ {s}, P s → P (takeStep s)
  planAction : ∀ {s}, s.modeCtl.mode = .auto → P s → P (takePlanAction s)
  defer : ∀ {s}, s.modeCtl.mode ≠ .auto → P s → P (s.withOrder { s.order with deferred := true })
  evalPlan : ∀ {s} img, P s → P (evalPlan img s)
  planCounts : ∀ {s} dwell judged, P s → P (s.withPlan { s.plan with dwell := dwell, aimJudged := judged })
  resume : ∀ {s}, s.plan.state = .held → s.modeCtl.mode = .auto → P s → P (resumePlan s)
  finishAtHold : ∀ {s}, s.plan.state = .running → P s → P (s.withPlan { s.plan with finishAtHold := true })
  abandon : ∀ {s}, P s → P (doAbandon s).1

/-! ### Levels and tide -/

theorem evalTide_sameCore (p : Params) (s : State) : SameCore s (evalTide p s) := by simp [SameCore]

theorem qualifyTide_sameCore (p : Params) (s : State) : SameCore s (qualifyTide p s) := by simp [SameCore]

theorem selectLevels_sameCore (s : State) : SameCore s (selectLevels s) := by simp [SameCore]

theorem makeTideEvent_sameCore (k : TideKind) (o : TideOrigin) (h : Option Int) (s : State) : SameCore s (makeTideEvent k o h s) := by
  simp [SameCore]

theorem mem_levelFaults {k : FaultKind} {s : State} (h : k ∈ levelFaults s) : k = .levelUp ∨ k = .levelDn := by
  simp only [levelFaults, List.mem_append] at h
  rcases h with h | h
  · split at h <;> simp_all
  · split at h <;> simp_all

namespace KeptBySample

variable {P : State → Prop} (kept : KeptBySample P)
include kept

theorem recoverChannel {s : State} (c : ChannelId) (h : P s) : P (recoverChannel c s) := by
  unfold Machine.recoverChannel
  dsimp only
  split
  · exact kept.clearLevel c (kept.frame (by simp [SameCore]) h)
  · exact h

theorem sampleLevels {s : State} (img : Image) (up dn : Half) (h : P s) : P (sampleLevels img up dn s) := by
  unfold Machine.sampleLevels
  refine kept.frame (evalTide_sameCore _ _) (kept.frame (selectLevels_sameCore _) (kept.raiseLevel _ (fun k => mem_levelFaults) ?_))
  exact kept.recoverChannel _ (kept.recoverChannel _ (kept.frame (by simp [SameCore]) h))

theorem levelSample {s : State} (img : Image) (up dn : Half) (h : P s) : P (levelSample img up dn s) :=
  kept.setConditions _ _ _ (kept.sampleLevels img up dn h)

end KeptBySample

theorem encoderKind_cases (d : Side) : encoderKind d = .encL ∨ encoderKind d = .encR := by cases d <;> simp [encoderKind]

theorem positionFaults_ne_planBad (img : Image) (s : State) : ∀ k ∈ positionFaults img s, k ≠ .planBad := by
  intro k h
  simp only [positionFaults, List.mem_append] at h
  rcases h with (h | h) | h <;> split at h <;> simp_all

theorem driveFaults_ne_planBad (img : Image) (stalled : Bool) (s : State) : ∀ k ∈ driveFaults img stalled s, k ≠ .planBad := by
  intro k h
  simp only [driveFaults, List.mem_append] at h
  rcases h with ((h | h) | h) | h <;> split at h <;> simp_all

namespace KeptInService

variable {P : State → Prop} (kept : KeptInService P)
include kept

/-! ### The Position Unit -/

theorem recoverEncoder {s : State} (d : Side) (h : P s) : P (recoverEncoder d s) := by
  unfold Machine.recoverEncoder
  dsimp only
  split
  · refine kept.clear _ (fun k hk => ?_) (kept.frame (by simp [SameCore]) h)
    rcases encoderKind_cases d with e | e <;> simp_all
  · exact h

theorem evaluatePosition {s : State} (img : Image) (h : P s) : P (evaluatePosition img s) := by
  have recovered : P (Machine.recoverEncoder .right (Machine.recoverEncoder .left (s.withPosition (recompute img s.position)))) :=
    kept.recoverEncoder _ (kept.recoverEncoder _ (kept.frame (by simp [SameCore]) h))
  refine kept.raise _ (positionFaults_ne_planBad img _) ?_
  unfold clearTravel
  split
  · exact recovered
  · exact kept.clear _ (by simp) recovered

theorem endRead {s : State} (img : Image) (d : Side) (e : EncoderSide) (h : P s) : P (endRead img d e s) := by
  have ended : P (s.withPosition (setEncoder d e s.position)) := kept.frame (by simp [SameCore]) h
  unfold Machine.endRead
  dsimp only
  split
  · exact kept.evaluatePosition img ended
  · exact ended

theorem failOpenRead {s : State} (img : Image) (d : Side) (h : P s) : P (failOpenRead img d s) := by
  unfold Machine.failOpenRead
  dsimp only
  split
  · exact kept.endRead img d _ h
  · exact h

theorem takeReply {s : State} (img : Image) (r : Request) (raw : Half) (v : Bool) (h : P s) : P (takeReply img r raw v s) := by
  unfold Machine.takeReply
  dsimp only
  split
  · exact h
  · split
    · exact h
    · split <;> exact kept.endRead img _ _ h

theorem runOn {s : State} (age limit : Nat) (h : P s) : P (runOn age limit s) := kept.elapse _ h

theorem runToTick {s : State} (m : Nat) (h : P s) : P (runToTick m s) := kept.elapse _ h

theorem closeWindow {s : State} (img : Image) (d : Side) (h : P s) : P (closeWindow img d s) := by
  unfold Machine.closeWindow
  split
  · exact h
  · exact kept.failOpenRead img d (kept.elapse _ h)

/-! ### The units of the tick -/

theorem judgePump {s : State} (img : Image) (h : P s) : P (judgePump img s) := by
  unfold Machine.judgePump
  split
  · exact kept.raise _ (by simp) h
  · exact h

theorem proceed {s : State} (img : Image) (pumpReady : Bool) (warns : s.grant.moveState = .warn) (h : P s) :
    P (proceed img pumpReady s) := by
  unfold Machine.proceed
  split
  · exact h
  · split
    · exact kept.claim img (.moves warns) h
    · exact kept.judgePump img (kept.claim img (.pumps (.inl warns)) h)

theorem setLimited {s : State} (b : Bool) (h : P s) : P (setLimited b s) := kept.frame (by simp [SameCore]) h

theorem evalStill {s : State} (img : Image) (still : s.grant.moveState = .still) (h : P s) : P (evalStill img s) := by
  unfold Machine.evalStill
  split
  · split
    · exact h
    · next admits => exact kept.claim img (.want still admits) h
    · next lead admits => exact kept.claim img (.bypass lead still admits) h
  · exact h

theorem evalWant {s : State} (img : Image) (wants : s.grant.moveState = .want) (h : P s) : P (evalWant img s) := by
  unfold Machine.evalWant
  split
  · exact kept.standStill h
  · split
    · exact h
    · split
      · exact kept.claim img (.warn _ wants) h
      · exact h

theorem evalWarn {s : State} (img : Image) (pumpReady : Bool) (warns : s.grant.moveState = .warn) (h : P s) :
    P (evalWarn img pumpReady s) := by
  unfold Machine.evalWarn
  split
  · split
    · exact kept.standStill h
    · exact kept.proceed img pumpReady warns h
  · next granted =>
    split
    · exact kept.standStill h
    · split
      · exact kept.claim img (.yields warns granted) h
      · exact kept.proceed img pumpReady warns h

theorem evalMoving {s : State} (img : Image) (pumpReady : Bool) (moving : s.grant.moveState = .moving) (h : P s) :
    P (evalMoving img pumpReady s) := by
  unfold Machine.evalMoving pumpInMotion
  split
  · exact kept.setLimited _ (kept.standStill h)
  · split
    · exact kept.claim img (.pumped moving) h
    · exact kept.judgePump img (kept.claim img (.pumps (.inr moving)) h)

theorem evalGrant {s : State} (img : Image) (pumpReady : Bool) (h : P s) : P (evalGrant img pumpReady s) := by
  unfold Machine.evalGrant
  split
  · next e => exact kept.evalStill img e h
  · next e => exact kept.evalWant img e h
  · next e => exact kept.evalWarn img pumpReady e h
  · next e => exact kept.evalMoving img pumpReady e h

theorem evalDrive {s : State} (img : Image) (readbackL readbackR : Half) (h : P s) : P (evalDrive img readbackL readbackR s) := by
  rw [evalDrive_eq]
  have turned := kept.drive img readbackL readbackR h
  refine kept.raise _ (driveFaults_ne_planBad img _ _) ?_
  unfold clearSkew
  split
  · exact kept.clear _ (by simp) turned
  · exact turned

theorem evalTarget {s : State} (img : Image) (raise lower : Bool) (h : P s) : P (evalTarget img raise lower s) :=
  kept.frame (by simp [Machine.evalTarget, SameCore]) (kept.planCounts s.plan.dwell true h)

omit kept in
theorem unlessAhead {s : State} {f : State → State} (ahead : Nat) (h : P s) (acts : P (f s)) : P (unlessAhead ahead f s) := by
  unfold Machine.unlessAhead
  split
  · exact h
  · exact acts

theorem evalBlock {s : State} (img : Image) (inputs : TickInputs) (b : Block) (h : P s) : P (evalBlock img inputs b s) := by
  cases b with
  | position => exact kept.frame (by simp [Machine.evalBlock, SameCore]) h
  | mode => exact kept.sampleKeys _ _ _ h
  | target => exact kept.evalTarget img _ _ h
  | grant =>
    have turn : P (setGrantAhead (s.clocks.grantAhead - Config.tickMs) s) := kept.frame (by simp [SameCore]) h
    exact unlessAhead _ turn (kept.evalGrant img _ turn)
  | drive =>
    have turn : P (setDriveAhead (s.clocks.driveAhead - Config.tickMs) s) := kept.frame (by simp [SameCore]) h
    exact unlessAhead _ turn (kept.evalDrive img _ _ turn)
  | plan =>
    have turn : P (setPlanAhead (s.clocks.planAhead - Config.tickMs) s) := kept.frame (by simp [SameCore]) h
    exact unlessAhead _ turn (kept.evalPlan img turn)

theorem evalTick {s : State} (img : Image) (inputs : TickInputs) (h : P s) : P (evalTick img inputs s) :=
  evalTick_keeps h fun b _ => kept.evalBlock img inputs b

theorem takeTick {s : State} (inputs : TickInputs) (img : Image) (h : P s) : P (takeTick inputs img s) := by
  refine kept.evalTick img inputs (kept.failOpenRead img _ (kept.failOpenRead img _ ?_))
  exact kept.frame (withClocks_sameCore _ _) (kept.frame (hearLine_sameCore _ _) (kept.runOn s.clocks.tick Config.tickMs h))

theorem grantAtTick {s : State} (img : Image) (pumpReady : Bool) (remaining : Nat) (h : P s) :
    P (grantAtTick img pumpReady remaining s) :=
  kept.evalGrant img pumpReady (kept.frame (withClocks_sameCore _ _) (kept.runToTick _ h))

theorem driveAtTick {s : State} (img : Image) (remaining : Nat) (h : P s) : P (driveAtTick img remaining s) :=
  kept.evalDrive img _ _ (kept.frame (withClocks_sameCore _ _) (kept.frame (withClocks_sameCore _ _) (kept.runToTick _ h)))

theorem planAtTick {s : State} (img : Image) (h : P s) : P (planAtTick img s) := by
  unfold Machine.planAtTick
  dsimp only
  refine kept.evalPlan img (kept.planCounts _ _ (kept.frame (withClocks_sameCore _ _) (kept.runToTick _ h)))

/-! ### Frames and commands -/

theorem dropAtArrival {s : State} (h : P s) : P (dropAtArrival s) := kept.frame (by simp [SameCore]) h

theorem countError {s : State} (h : P s) : P (countError s) := kept.frame (by simp [SameCore]) h

theorem answer {s : State} (source tag code : Nat) (result : CommandResult) (h : P s) : P (answer source tag code result s) :=
  kept.frame (s := s) ⟨rfl, rfl, rfl, rfl, rfl, rfl⟩ h

theorem frameArrives {s : State} (h : P s) : P (frameArrives s) :=
  kept.clear _ (by simp) (kept.frame (withLine_sameCore _ _) (kept.frame (withLine_sameCore _ _) h))

theorem dropFrame {s : State} (what : Reception) (h : P s) : P (dropFrame what s) := kept.frame (by simp [SameCore]) h

theorem haltAtAdoption {s : State} (h : P s) : P (haltAtAdoption s) := by
  unfold Machine.haltAtAdoption
  split
  · split
    · exact kept.haltStop h
    · exact kept.takeStep h
  · exact h

theorem planActionAtAdoption {s : State} (h : P s) : P (planActionAtAdoption s) := by
  unfold Machine.planActionAtAdoption
  split
  · next auto => exact kept.planAction auto h
  · next other => exact kept.defer other h

theorem adopt {s : State} (o : Order) (h : P s) : P (adopt o s) := by
  unfold Machine.adopt
  dsimp only
  refine kept.setConditions _ _ _ (kept.haltAtAdoption (kept.planActionAtAdoption (kept.frame (s := s) ?_ h)))
  exact ⟨rfl, rfl, rfl, rfl, rfl, rfl⟩

theorem setClock {s : State} (time : Nat × Nat) (h : P s) : P (setClock time s) := by
  unfold Machine.setClock
  split
  · exact kept.frame (s := s) ⟨rfl, rfl, rfl, rfl, rfl, rfl⟩ h
  · exact h

theorem offerOrder {s : State} (img : Image) (k : OrderKind) (f : OfferedOrder) (time : Option (Nat × Nat)) (h : P s) :
    P (offerOrder img k f time s) := by
  unfold Machine.offerOrder
  split
  · exact h
  · split
    · refine kept.adopt _ ?_
      split
      · exact kept.setClock _ h
      · exact h
    · exact h

theorem takeOrderFrame {s : State} (source : Nat) (payload : List Byte) (h : P s) : P (takeOrderFrame source payload s) := by
  unfold Machine.takeOrderFrame
  split
  · exact h
  · split
    · exact kept.countError h
    · split
      · exact kept.countError h
      · split
        · exact h
        · exact kept.offerOrder _ _ _ _ h

theorem takeEcho {s : State} (img : Image) (f : OfferedOrder) (h : P s) : P (takeEcho img f s) := by
  unfold Machine.takeEcho
  split
  · exact h
  · split
    · exact kept.countError h
    · split
      · exact kept.countError h
      · exact kept.offerOrder _ _ _ _ h

theorem takeStateFrame {s : State} (source : Nat) (f : StateFrame) (h : P s) : P (takeStateFrame source f s) := by
  unfold Machine.takeStateFrame
  split
  · exact h
  · split
    · exact kept.raise _ (by simp) (kept.frame (by simp [SameCore]) h)
    · split
      · exact kept.takeEcho _ _ (kept.frame (by simp [SameCore]) h)
      · exact kept.countError h

theorem takeTideFrame {s : State} (source : Nat) (r : TideRecord) (h : P s) : P (takeTideFrame source r s) :=
  kept.frame (by simp [SameCore]) h

theorem doResume {s : State} (h : P s) : P (doResume s).1 := by
  unfold Machine.doResume
  split
  · next held => exact kept.resume held.1 held.2 h
  · exact h

theorem doFinishAtHold {s : State} (h : P s) : P (doFinishAtHold s).1 := by
  unfold Machine.doFinishAtHold
  split
  · next running => exact kept.finishAtHold running h
  · exact h

theorem doTideEvent {s : State} (argument : Nat) (h : P s) : P (doTideEvent argument s).1 := by
  unfold Machine.doTideEvent
  split
  · exact h
  · split
    · exact h
    · exact kept.frame (makeTideEvent_sameCore _ _ _ _) h

/-- A frame that arrives, with what it brings about, is kept where its treatment is. -/
theorem arrival {s : State} {source : Byte} {f : State → State} (h : P s) (acts : P (Machine.frameArrives s) → P (f (Machine.frameArrives s))) :
    P (arrival source f s) :=
  arrival_keeps h (fun _ => kept.dropAtArrival h) fun _ _ => acts (kept.frameArrives h)

theorem command {s : State} {source target tag : Byte} {code level : Nat} {act : State → State × CommandResult} (h : P s)
    (acts : ∀ t, P t → P (act t).1) : P (command source target tag code level act s) :=
  command_keeps h (fun _ => kept.dropAtArrival h) (fun _ => kept.frameArrives h) (fun _ => kept.countError)
    (fun _ _ => kept.answer _ _ _ _) fun _ _ _ => acts _ (kept.frameArrives h)

/-! ### The line -/

theorem reachPeriod {s : State} (h : P s) : P (reachPeriod s) := by
  unfold Machine.reachPeriod
  split
  · split
    · exact h
    · exact kept.frame (withLine_sameCore _ _) (kept.runOn _ _ h)
  · exact h

theorem completeFrame {s : State} (h : P s) : P (completeFrame s) := by
  unfold Machine.completeFrame
  split
  · exact h
  · exact kept.clear _ (by simp) (kept.frame (withLine_sameCore _ _) h)

theorem expireTx {s : State} (h : P s) : P (expireTx s) := by
  unfold Machine.expireTx
  split
  · split
    · exact h
    · exact kept.raise _ (by simp) (kept.frame (withLine_sameCore _ _) (kept.runOn _ _ h))
  · exact h

theorem exceedRun {s : State} (h : P s) : P (exceedRun s) := by
  unfold Machine.exceedRun
  split
  · split
    · exact kept.raise _ (by simp) (kept.frame (withLine_sameCore _ _) (kept.runOn _ _ h))
    · exact h
  · exact h

end KeptInService

end Sys2Proof.Proofs
end

section
namespace Sys2Proof.Proofs

open Sys2Proof.Machine Sys2Proof.Safety

/-! ### The events that end or begin a service -/

/-- The events that reset a station: the power-on or the reset input, and a RESTART (R68, R180). -/
inductive IsReset : Instr → Prop
  | powerOn (supply : Bool) : IsReset (.powerOnReset supply)
  | restart (source target argument tag : Byte) (straps : BitVec 4) : IsReset (.restart source target argument tag straps)

/-- The events of the configuration image, and the end of a reset (R180 to R182). -/
inductive IsImageEvent : Instr → Prop
  | resetEnd (straps : BitVec 4) : IsImageEvent (.resetEnd straps)
  | failed : IsImageEvent .imageReadFailed
  | retry : IsImageEvent .imageReadRetry
  | complete (bytes : List Byte) (inputs : TickInputs) (upCode downCode : Half) :
      IsImageEvent (.imageReadComplete bytes inputs upCode downCode)

theorem acceptedImage_of_unread {s : State} (h : s.loader.image = .unread) : acceptedImage s = none := by
  simp [acceptedImage, h]

theorem lineWorks_of_unread {s : State} (h : s.loader.image = .unread) : lineWorks s = false := by
  simp [lineWorks, h]

theorem receiving_of_not_lineWorks {s : State} (h : lineWorks s = false) : receiving s = false := by simp [receiving, h]

/-- Before the end of the image read no event acts but resets, the events of the image, and the passing of time (R179). -/
theorem effect_of_unread {i : Instr} {s : State} (h : s.loader.image = .unread) (notReset : ¬ IsReset i) (notImage : ¬ IsImageEvent i) :
    effect i s = s ∨ ∃ dt, effect i s = elapse dt s := by
  have accepted {f : Image → State → State} : whileAccepted f s = s := whileAccepted_of_none f (acceptedImage_of_unread h)
  have works {f : State → State} : whileLineWorks f s = s := whileLineWorks_of_false f (lineWorks_of_unread h)
  have receives := receiving_of_not_lineWorks (lineWorks_of_unread h)
  have arrives {source : Byte} {f : State → State} : arrival source f s = s := arrival_of_not_receiving source f receives
  cases i <;> simp only [effect, accepted, works, arrives, command, receives, true_or, Bool.false_eq_true, if_false, ite_self,
    acceptedImage_of_unread h]
  case powerOnReset supply => exact absurd (.powerOn supply) notReset
  case resetEnd straps => exact absurd (.resetEnd straps) notImage
  case imageReadFailed => exact absurd .failed notImage
  case imageReadRetry => exact absurd .retry notImage
  case imageReadComplete bytes inputs up dn => exact absurd (.complete bytes inputs up dn) notImage
  case weirClockDay => exact .inr ⟨_, rfl⟩
  case stateFrame => exact .inl (by split <;> rfl)
  case tideFrame => exact .inl (by split <;> rfl)

/-- Once the image has been read its events do nothing (R181, R182). -/
theorem effect_of_image_read {i : Instr} {s : State} (image : IsImageEvent i) (notReset : s.loader.inReset = false)
    (notReading : s.loader.reading = false) (notWaiting : s.loader.retryTimer = none) : effect i s = s := by
  cases image <;> simp [effect, endReset, failAttempt, beginRetry, completeRead, notReset, notReading, notWaiting]

theorem concludeEvent_sameCore (s t : State) : SameCore t (concludeEvent s t) := by simp [SameCore]

/-- Both commands of a reset kind, RESTART carried out and the power-on, leave an initial state. -/
def AfterReset (t : State) : Prop := ∃ cause lasts straps queue, t = (State.initial cause lasts straps).withPending queue

theorem afterReset_doRestart (straps : BitVec 4) (s : State) : AfterReset (doRestart straps s) := ⟨_, _, _, _, rfl⟩

theorem afterReset_beginReset (supply : Bool) (s : State) : AfterReset (beginReset supply s) := ⟨_, _, _, _, rfl⟩

/-- What the shared operations keep, every event of a station in service keeps; its `Q` follows where the event is a CLEAR_FAULT, or a reset,
from what is known of those. -/
theorem KeptInService.effect_keeps {P Q : State → Prop} (kept : KeptInService P) {i : Instr} {s : State} (h : P s)
    (image : IsImageEvent i → effect i s = s) (weaken : ∀ t, P t → Q t)
    (clears : (∃ source target argument tag, i = .clearFault source target argument tag) → ∀ t, P t → P (doClearFault t).1)
    (resets : IsReset i → ∀ t, AfterReset t → Q t) : Q (effect i s) := by
  by_cases isImage : IsImageEvent i
  · rw [image isImage]; exact weaken s h
  by_cases isRestart : ∃ source target argument tag straps, i = .restart source target argument tag straps
  · obtain ⟨source, target, argument, tag, straps, rfl⟩ := isRestart
    have initial (t : State) : Q (doRestart straps t) := resets (.restart ..) _ (afterReset_doRestart straps t)
    refine arrival_keeps (weaken _ h) (fun _ => weaken _ (kept.dropAtArrival h)) fun _ _ => ?_
    have heard := kept.frameArrives h
    exact addressed_keeps (weaken _ heard) (weaken _ (kept.countError heard)) <|
      authorised_keeps (weaken _ (kept.answer _ _ _ _ heard)) fun _ _ => initial _
  by_cases isPower : ∃ supply, i = .powerOnReset supply
  · obtain ⟨supply, rfl⟩ := isPower
    exact resets (.powerOn supply) _ (afterReset_beginReset supply s)
  refine weaken _ ?_
  have accepted {f : Image → State → State} (acts : ∀ img t, P t → P (f img t)) : P (whileAccepted f s) :=
    whileAccepted_keeps h fun img _ => acts img s h
  have works {f : State → State} (acts : ∀ t, P t → P (f t)) : P (whileLineWorks f s) := whileLineWorks_keeps h fun _ => acts s h
  have dropped : P (if receiving s then Machine.dropAtArrival s else s) := dropUnlessReceiving_keeps h fun _ => kept.dropAtArrival h
  cases i <;> simp only [effect]
  case powerOnReset supply => exact absurd ⟨supply, rfl⟩ isPower
  case restart source target argument tag straps => exact absurd ⟨source, target, argument, tag, straps, rfl⟩ isRestart
  case resetEnd straps => exact absurd (.resetEnd straps) isImage
  case imageReadFailed => exact absurd .failed isImage
  case imageReadRetry => exact absurd .retry isImage
  case imageReadComplete bytes inputs up dn => exact absurd (.complete bytes inputs up dn) isImage
  case controlTick inputs =>
    split
    · exact kept.takeTick _ _ h
    · exact works fun t ht => kept.frame (hearLine_sameCore _ _) ht
  case encoderReply => exact accepted fun img t => kept.takeReply img _ _ _
  case replyWindow => exact accepted fun img t => kept.closeWindow img _
  case encFault side =>
    refine accepted fun img t ht => ?_
    split
    · exact kept.raise _ (by cases side <;> simp [encoderKind]) ht
    · exact ht
  case encRecovery => exact accepted fun img t => kept.recoverEncoder _
  case levelSample =>
    exact accepted fun img t ht => kept.levelSample img _ _ (kept.frame (withClocks_sameCore _ _) (kept.runOn _ _ ht))
  case levelFault channel =>
    refine accepted fun img t ht => ?_
    split
    · exact kept.raise _ (by cases channel <;> simp [channelKind]) ht
    · exact ht
  case levelRecovery => exact accepted fun img t => kept.recoverChannel _
  case tideQualified => exact accepted fun img t => kept.frame (qualifyTide_sameCore _ _)
  case peerAgeing =>
    exact accepted fun img t ht => kept.frame (withPeers_sameCore _ _) (kept.frame (withClocks_sameCore _ _) (kept.runOn _ _ ht))
  case orderFrame source payload =>
    split
    · exact kept.arrival h (kept.takeOrderFrame _ _)
    · exact dropped
  case stateFrame source payload =>
    split
    · exact kept.arrival h (kept.takeStateFrame _ _)
    · exact dropped
  case tideFrame source payload =>
    split
    · exact kept.arrival h (kept.takeTideFrame _ _)
    · exact dropped
  case resume => exact kept.command h fun t => kept.doResume
  case finishAtHold => exact kept.command h fun t => kept.doFinishAtHold
  case tideEvent => exact kept.command h fun t => kept.doTideEvent _
  case abandon => exact kept.command h fun t => kept.abandon
  case clearFault source target argument tag => exact kept.command h (clears ⟨source, target, argument, tag, rfl⟩)
  case clearCounts => exact kept.command h fun t => kept.frame (withLine_sameCore _ _)
  case unknownCommand =>
    split
    · exact h
    · exact kept.arrival h fun ht => addressed_keeps ht (kept.countError ht) (kept.answer _ _ _ _ ht)
  case frameDropped =>
    split
    · exact kept.dropFrame _ h
    · exact h
  case duplicateClear =>
    refine accepted fun img t ht => ?_
    split
    · exact kept.clear _ (by simp) (kept.frame (withPeers_sameCore _ _) (kept.runOn _ _ ht))
    · exact ht
  case alone =>
    refine accepted fun img t ht => ?_
    split
    · exact kept.raise _ (by simp) (kept.runOn _ _ ht)
    · exact ht
  case periodicReport => exact works fun t => kept.reachPeriod
  case gapEnd => exact works fun t => kept.runOn _ _
  case sendStart => exact works fun t => kept.frame (by simp [SameCore])
  case lostArbitration =>
    refine works fun t ht => ?_
    split
    · exact kept.frame (withLine_sameCore _ _) ht
    · exact ht
  case lineNotFollowing =>
    refine works fun t ht => ?_
    split
    · exact kept.frame (withLine_sameCore _ _) ht
    · exact ht
  case frameComplete => exact works fun t => kept.completeFrame
  case txBlockedTimer => exact works fun t => kept.expireTx
  case dominantRun => exact works fun t => kept.exceedRun
  case lineIdle => exact works fun t => kept.frame (by simp [SameCore])
  case announceWait =>
    refine accepted fun img t ht => ?_
    split
    · exact kept.grantAtTick img _ _ ht
    · exact ht
  case warnLead =>
    refine accepted fun img t ht => ?_
    split
    · exact kept.grantAtTick img _ _ ht
    · exact ht
  case pumpWait =>
    refine accepted fun img t ht => ?_
    split
    · exact kept.grantAtTick img _ _ ht
    · exact ht
  case valveMismatch side =>
    refine accepted fun img t ht => ?_
    split
    · exact kept.raise _ (by cases side <;> simp [valveKind]) ht
    · exact ht
  case stall =>
    refine accepted fun img t ht => ?_
    split
    · exact kept.driveAtTick img _ ht
    · exact ht
  case stormClearTime => exact accepted fun img t => kept.endStorm img
  case dwellExpired =>
    refine accepted fun img t ht => ?_
    split
    · exact kept.planAtTick img ht
    · exact ht
  case weirClockDay => exact kept.elapse _ h

/-- Once the image has been read, a step keeps what the shared operations keep, but for resets, whose states are the initial ones. -/
theorem KeptInService.exec_keeps {P Q : State → Prop} (kept : KeptInService P) {i : Instr} {s t : State} (h : P s) (start : StartSound s)
    (read : s.loader.image ≠ .unread) (weaken : ∀ t, P t → Q t) (clears : ∀ t, P t → P (doClearFault t).1)
    (resets : ∀ t, AfterReset t → Q t) (frame : ∀ {a b}, SameCore a b → Q a → Q b) (run : exec i s = .next t) : Q t := by
  obtain ⟨-, -, -, inReset, reading, -, waiting⟩ := start
  have notReset : s.loader.inReset = false := by
    by_contra lasts
    exact read (inReset (Bool.eq_true_of_not_eq_false lasts)).1
  have notReading : s.loader.reading = false := by
    by_contra reads
    exact read (reading (Bool.eq_true_of_not_eq_false reads))
  have notWaiting : s.loader.retryTimer = none := by
    by_contra waits
    exact read (waiting (Option.isSome_iff_ne_none.mpr waits))
  rw [exec_eq_next run]
  exact frame (concludeEvent_sameCore s _) <|
    kept.effect_keeps h (fun image => effect_of_image_read image notReset notReading notWaiting) weaken (fun _ => clears) fun _ => resets

end Sys2Proof.Proofs
end

section
/-! SUPPORT. The fault sets as sets, and what the Plan Sequencer's operations and the transitions leave sound of them (R129, R130, R160 to
R162). -/

namespace Sys2Proof.Proofs

open Sys2Proof.Machine Sys2Proof.Safety

/-! ### Sets within sets -/

theorem subset_iff {a l : FaultSet} : a &&& l = a ↔ ∀ i, a.getLsbD i = true → l.getLsbD i = true := by
  constructor
  · intro h i ha
    rw [← h, BitVec.getLsbD_and, Bool.and_eq_true] at ha
    exact ha.2
  · intro h
    refine BitVec.eq_of_getLsbD_eq fun i _ => ?_
    rw [BitVec.getLsbD_and]
    cases ha : a.getLsbD i
    · rfl
    · rw [h i ha]; rfl

theorem subset_dropFault {a l : FaultSet} (k : FaultKind) (h : a &&& l = a) : dropFault k a &&& l = dropFault k a := by
  rw [subset_iff] at *
  intro i hi
  simp only [dropFault, BitVec.getLsbD_and, Bool.and_eq_true] at hi
  exact h i hi.1

theorem subset_addFault {a l : FaultSet} (k : FaultKind) (h : a &&& l = a) : addFault k a &&& addFault k l = addFault k a := by
  rw [subset_iff] at *
  intro i hi
  simp only [addFault, BitVec.getLsbD_or, Bool.or_eq_true] at *
  exact hi.imp_left (h i)

theorem subset_addFault_right {a l : FaultSet} (k : FaultKind) (h : a &&& l = a) : a &&& addFault k l = a := by
  rw [subset_iff] at *
  intro i hi
  simp only [addFault, BitVec.getLsbD_or, Bool.or_eq_true]
  exact .inl (h i hi)

/-- A kind that does not stand in a set may leave the sets around it. -/
theorem subset_dropFault_right {a l : FaultSet} {k : FaultKind} (h : a &&& l = a) (absent : hasFault k a = false) :
    a &&& dropFault k l = a := by
  have := subset_dropFault k (l := l) h
  rw [dropFault_of_not_mem absent] at this
  rw [subset_iff] at *
  intro i hi
  have outside : (onlyFault k).getLsbD i = false := by
    by_contra inside
    rw [Bool.not_eq_false, onlyFault, BitVec.getLsbD_twoPow] at inside
    obtain ⟨-, same⟩ : faultBit k < 16 ∧ faultBit k = i := by simpa using inside
    subst same
    simp only [hasFault] at absent
    simp [absent] at hi
  have inWidth : i < 16 := BitVec.lt_of_getLsbD hi
  simp only [dropFault, BitVec.getLsbD_and, BitVec.getLsbD_not, outside, h i hi, inWidth, decide_true, Bool.not_false, Bool.and_self]

theorem addFault_ne_zero (k : FaultKind) (f : FaultSet) : addFault k f ≠ 0 := by
  intro h
  have : hasFault k (addFault k f) = true := by simp
  rw [h] at this
  simp [hasFault] at this

/-- Whether a stop-class kind stands in a set is decided by the stop-class kinds alone. -/
theorem hasStopClass_congr {f g : FaultSet} (h : ∀ k, isStopClass k = true → hasFault k f = hasFault k g) : hasStopClass f = hasStopClass g := by
  rw [Bool.eq_iff_iff, ← not_iff_not, Bool.not_eq_true, Bool.not_eq_true, hasStopClass_eq_false, hasStopClass_eq_false]
  exact forall_congr' fun k => imp_congr_right fun stop => by rw [h k stop]

theorem hasStopClass_iff {f : FaultSet} : hasStopClass f = true ↔ ∃ k, isStopClass k = true ∧ hasFault k f = true := by
  rw [← not_iff_not, Bool.not_eq_true, hasStopClass_eq_false]
  simp

/-! ### What stays sound of the sets whatever the mode -/

/-- The parts of the soundness of the fault sets that do not speak of the mode (R130, R161, R162). -/
def SetsSound (m : ModeCtl) : Prop :=
  m.active &&& m.latched = m.active ∧ hasFault .planBad m.active = false ∧ (m.firstFault = none ↔ m.latched = 0)

/-- What the Plan Sequencer and the ends of a move do to the Mode Controller: the fault sets alone move, of the latched set PLAN_BAD alone, CONFIG stays
active or not, and the sets are left sound (R114, R116, R129, R130, R140). -/
def SetsMove (m m' : ModeCtl) : Prop :=
  m' = { m with active := m'.active, latched := m'.latched, firstFault := m'.firstFault } ∧
    dropFault .planBad m'.latched = dropFault .planBad m.latched ∧
    hasFault .config m'.active = hasFault .config m.active ∧ (SetsSound m → SetsSound m')

theorem SetsMove.refl (m : ModeCtl) : SetsMove m m := ⟨rfl, rfl, rfl, id⟩

theorem SetsMove.trans {a b c : ModeCtl} (h : SetsMove a b) (g : SetsMove b c) : SetsMove a c := by
  obtain ⟨frame, latched, config, sound⟩ := h
  obtain ⟨frame', latched', config', sound'⟩ := g
  refine ⟨?_, latched'.trans latched, config'.trans config, sound' ∘ sound⟩
  rw [frame', frame]

/-- The sets move alike whatever save is held. -/
theorem SetsMove.withSave {m m' : ModeCtl} {c : Option StormSave} (h : SetsMove m m') :
    SetsMove { m with save := c } { m' with save := c } := by
  obtain ⟨frame, latched, config, sound⟩ := h
  exact ⟨by rw [frame], latched, config, sound⟩

theorem SetsMove.of_planOnly {m m' : ModeCtl} (h : PlanOnly m m') (latched : dropFault .planBad m'.latched = dropFault .planBad m.latched)
    (sound : SetsSound m → SetsSound m') : SetsMove m m' :=
  ⟨h.1, latched, (h.2 .config (by decide)).1, sound⟩

theorem dropFault_addFault (k : FaultKind) (f : FaultSet) : dropFault k (addFault k f) = dropFault k f := by
  unfold dropFault addFault
  rw [BitVec.and_comm, BitVec.and_or_distrib_left, BitVec.and_comm _ f, BitVec.not_and_self]
  exact BitVec.or_zero

theorem dropFault_dropFault (k : FaultKind) (f : FaultSet) : dropFault k (dropFault k f) = dropFault k f := by
  unfold dropFault
  rw [BitVec.and_assoc, BitVec.and_self]

/-- Sets that agree but for one kind hold the same of every other. -/
theorem hasFault_of_dropFault_eq {j k : FaultKind} {f g : FaultSet} (h : dropFault j f = dropFault j g) (other : k ≠ j) :
    hasFault k f = hasFault k g := by
  have same := congrArg (hasFault k) h
  simpa [other] using same

/-- PLAN_BAD enters the latched set alone (R130). -/
theorem latchKinds_planBad_latched (s : State) :
    dropFault .planBad (latchKinds [.planBad] s).modeCtl.latched = dropFault .planBad s.modeCtl.latched := by
  cases bad : condition .planBad s with
  | true => rw [latchKinds_of_active bad]
  | false =>
    rw [latchKinds_of_inactive bad]
    exact dropFault_addFault ..

/-- PLAN_BAD raised and at once inactive (R130). -/
theorem failPlan_faults (s : State) : SetsMove s.modeCtl (failPlan s).modeCtl := by
  refine .of_planOnly (failPlan_modeCtl s) ?_ fun ⟨within, notBad, first⟩ => ?_
  · exact latchKinds_planBad_latched _
  have inactive : condition .planBad s = false := notBad
  have modes : (failPlan s).modeCtl =
      { raisedModes .planBad s with active := dropFault .planBad (addFault .planBad s.modeCtl.active) } := by
    unfold failPlan
    rw [clearKinds_one, latchKinds_of_inactive]
    · rfl
    · exact inactive
  rw [modes]
  refine ⟨subset_dropFault _ (subset_addFault _ within), by simp, ?_⟩
  simp only [addFault_ne_zero, iff_false]
  split
  · simp
  · next latched => exact fun none => latched (first.mp none)

theorem refill_faults (s : State) : SetsMove s.modeCtl (refill s).modeCtl := by
  unfold refill
  (repeat' split) <;> first | exact .refl _ | exact failPlan_faults s

theorem beginStep_faults (img : Image) (i : Nat) (rest : List Nat) (s : State) :
    SetsMove s.modeCtl (refill (beginStep img i rest s)).modeCtl := refill_faults (beginStep img i rest s)

theorem takeStep_faults (s : State) : SetsMove s.modeCtl (takeStep s).modeCtl := by
  unfold takeStep
  split
  · exact .refl _
  · split
    · split
      · exact beginStep_faults ..
      · split
        · rw [endPlan_modeCtl]; exact .refl _
        · exact .refl _
    · exact .refl _

theorem takeStep_refill_faults {m : ModeCtl} (s : State) (h : s.modeCtl = m) : SetsMove m (takeStep (refill s)).modeCtl :=
  h ▸ (refill_faults s).trans (takeStep_faults _)

theorem removePlanBad_faults (s : State) : SetsMove s.modeCtl (removePlanBad s).modeCtl := by
  refine .of_planOnly (removePlanBad_modeCtl s) (dropFault_dropFault ..) fun ⟨within, notBad, first⟩ => ⟨subset_dropFault_right within notBad, notBad, ?_⟩
  simp only [removePlanBad, unlatch, State.withModeCtl]
  split
  · next gone => exact ⟨fun _ => gone, fun _ => rfl⟩
  · next left =>
    refine ⟨fun none => absurd ?_ left, fun gone => absurd gone left⟩
    rw [first.mp none]
    decide

theorem startPlan_faults (n : Nat) (s : State) : SetsMove s.modeCtl (startPlan n s).modeCtl := by
  unfold startPlan
  split
  · exact .refl _
  · dsimp only
    split
    · exact (removePlanBad_faults s).trans (failPlan_faults _)
    · exact (removePlanBad_faults s).trans (takeStep_refill_faults _ rfl)

theorem takePlanAction_faults (s : State) : SetsMove s.modeCtl (takePlanAction s).modeCtl := by
  unfold takePlanAction
  split
  · rw [abandonPlan_modeCtl]; exact .refl _
  · exact startPlan_faults _ s
  · exact .refl _

theorem resumePlan_faults (s : State) : SetsMove s.modeCtl (resumePlan s).modeCtl := by
  unfold resumePlan
  split
  · exact refill_faults (s.withPlan _)
  · exact takeStep_refill_faults _ rfl

theorem adjustRestored_faults (m : Mode) (s : State) : SetsMove s.modeCtl (adjustRestored m s).modeCtl := by
  unfold adjustRestored
  split
  · split
    · exact takeStep_refill_faults _ rfl
    · rw [holdPlan_modeCtl]; exact .refl _
  · exact .refl _
  · exact .refl _

/-- A restore discards the save, if one is held, and does to the rest what a plan may do (R157). -/
theorem restoreSave_faults (m : Mode) (s : State) : SetsMove { s.modeCtl with save := none } (restoreSave m s).modeCtl := by
  cases held : s.modeCtl.save with
  | none =>
    have same : restoreSave m s = s := by simp [restoreSave, held]
    rw [same, ← held]
    exact .refl _
  | some c =>
    rw [restoreSave_of_save m held]
    exact adjustRestored_faults m (saveRestored c s)

theorem stepDone_faults (img : Image) (s : State) : SetsMove s.modeCtl (stepDone img s).modeCtl := by
  unfold stepDone
  split
  · exact .refl _
  · split
    · rw [endPlan_modeCtl]; exact .refl _
    · split
      · exact .refl _
      · exact takeStep_faults (setMark (s.withPlan _))

theorem tidePhase_faults (img : Image) (s : State) : SetsMove s.modeCtl (tidePhase img s).modeCtl := by
  unfold tidePhase
  split
  · exact .refl _
  · split
    · split
      · exact stepDone_faults img (s.withTide _)
      · exact .refl _
    · exact stepDone_faults img s

theorem enterTide_faults (img : Image) (s : State) : SetsMove s.modeCtl (enterTide img s).modeCtl := tidePhase_faults img (s.withPlan _)

theorem evalPlan_faults (img : Image) (s : State) : SetsMove s.modeCtl (evalPlan img s).modeCtl := by
  unfold evalPlan
  split
  · split
    · split
      · unfold enterDwell
        split
        · exact enterTide_faults img (s.withPlan _)
        · exact .refl _
      · exact .refl _
    · dsimp only
      split
      · exact enterTide_faults img (s.withPlan _)
      · exact .refl _
    · exact tidePhase_faults img s
    · exact .refl _
  · exact .refl _

/-! ### Transitions of the mode -/

/-- The conditions that describe a move end (R98, R114, R116). -/
theorem standStill_faults (s : State) : SetsMove s.modeCtl (standStill s).modeCtl := by
  rw [standStill_modeCtl]
  refine ⟨rfl, rfl, by simp, fun ⟨within, notBad, first⟩ => ⟨?_, by simp [notBad], first⟩⟩
  exact subset_dropFault _ (subset_dropFault _ (subset_dropFault _ (subset_dropFault _ within)))

theorem haltStop_faults (s : State) : SetsMove s.modeCtl (haltStop s).modeCtl := by
  unfold haltStop
  split
  · exact .refl _
  · exact standStill_faults (setpointToOpening s)
  · exact standStill_faults s

theorem claimAtTransition_faults (new : Mode) (s : State) : SetsMove s.modeCtl (claimAtTransition new s).modeCtl := by
  have still := standStill_faults s
  have halted := standStill_faults (setpointToOpening s)
  unfold claimAtTransition
  split
  · exact .refl _
  · exact still
  · split <;> dsimp only <;> split <;> first | exact .refl _ | exact still | (split <;> exact .refl _)
  · split <;> dsimp only <;> split <;> first | exact .refl _ | exact still | (split <;> exact .refl _)
  · split
    · split
      · exact still
      · exact halted
      · exact .refl _
    · exact .refl _
  · split
    · split
      · exact still
      · exact halted
      · exact .refl _
    · exact .refl _

theorem enterAuto_faults (s : State) : SetsMove s.modeCtl (enterAuto s).modeCtl := by
  have halted : SetsMove s.modeCtl (if haltInForce s then haltStop s else s).modeCtl := by
    split
    · exact haltStop_faults s
    · exact .refl _
  unfold enterAuto
  generalize (if haltInForce s then haltStop s else s) = t at halted
  dsimp only
  split
  · exact halted.trans (takePlanAction_faults (t.withOrder _))
  · exact halted

/-- The storm save as a transition into `new` leaves it (R155, R157, R158). -/
def saveAfter (new : Mode) (s : State) : Option StormSave :=
  if new = .auto ∨ new = .loc ∨ new = .maint then none
  else if new = .storm ∧ s.modeCtl.save = none then some (planContext s) else s.modeCtl.save

/-- The Mode Controller as a transition into `new` has it, but for what the ends of a move and the plan do to the fault sets (R149, R151, R155 to
R158): mode and relay, the clear timer stopped, the save. -/
def modeEntered (new : Mode) (s : State) : ModeCtl :=
  { s.modeCtl with mode := new, relay := relayIn new, stormClear := none, save := saveAfter new s }

theorem enterMode_faults (new : Mode) (s : State) :
    SetsMove (modeEntered new s) (enterMode new s).modeCtl := by
  have claimed : SetsMove (setMode new (takeStormSave new s)).modeCtl
      (if s.modeCtl.mode = .auto then holdPlan (claimAtTransition new (setMode new (takeStormSave new s)))
       else claimAtTransition new (setMode new (takeStormSave new s))).modeCtl := by
    split
    · rw [holdPlan_modeCtl]; exact claimAtTransition_faults ..
    · exact claimAtTransition_faults ..
  unfold enterMode
  dsimp only
  generalize (if s.modeCtl.mode = .auto then holdPlan (claimAtTransition new (setMode new (takeStormSave new s)))
       else claimAtTransition new (setMode new (takeStormSave new s))) = held at claimed
  have restored : SetsMove (modeEntered new s) (restoreInto new held).modeCtl := by
    unfold restoreInto
    split
    · next serves =>
      have same : modeEntered new s = { (setMode new (takeStormSave new s)).modeCtl with save := none } := by
        unfold modeEntered saveAfter takeStormSave
        rw [if_pos serves]
        split <;> rfl
      rw [same]
      exact claimed.withSave.trans (restoreSave_faults new held)
    · next serves =>
      have same : modeEntered new s = (setMode new (takeStormSave new s)).modeCtl := by
        unfold modeEntered saveAfter takeStormSave
        rw [if_neg serves]
        split <;> rfl
      rw [same]
      exact claimed
  split
  · exact restored.trans (enterAuto_faults _)
  · exact restored

end Sys2Proof.Proofs
end

section
/-! SUPPORT. Modes, fault sets and storm stay sound (O57): what each shared operation does to the Mode Controller of a station whose image has been
read, and the events of the start. -/

namespace Sys2Proof.Proofs

open Sys2Proof.Machine Sys2Proof.Safety

/-! ### The sound states of a station whose image has been read -/

/-- The Configuration Loader of a station whose image has been read: no reset, no attempt and no wait; CONFIG active after a rejection (R166,
R180, R181). -/
def Loaded (s : State) : Prop :=
  s.loader.image ≠ .unread ∧ s.loader.inReset = false ∧ s.loader.reading = false ∧ s.loader.retryTimer = none ∧
    (s.loader.image = .rejected → condition .config s = true)

/-- Modes, faults and storm agree in a station whose image has been read. -/
def ModesServe (s : State) : Prop := Loaded s ∧ s.modeCtl.mode ≠ .start ∧ FaultsSound s.modeCtl ∧ StormSound s

theorem modesServe_of_modeSound {s : State} (h : ModeSound s) (read : s.loader.image ≠ .unread) : ModesServe s := by
  obtain ⟨⟨start, -, config, inReset, reading, -, waiting⟩, faults, storm⟩ := h
  refine ⟨⟨read, ?_, ?_, ?_, config⟩, fun m => read (start.mp m), faults, storm⟩
  · by_contra lasts
    exact read (inReset (Bool.eq_true_of_not_eq_false lasts)).1
  · by_contra reads
    exact read (reading (Bool.eq_true_of_not_eq_false reads))
  · by_contra waits
    exact read (waiting (Option.isSome_iff_ne_none.mpr waits))

theorem startSound_of_loaded {s : State} (h : Loaded s) (started : s.modeCtl.mode ≠ .start) : StartSound s := by
  obtain ⟨read, notReset, notReading, notWaiting, config⟩ := h
  refine ⟨iff_of_false started read, fun unread => absurd unread read, config, ?_, ?_, ?_, ?_⟩ <;> simp [notReset, notReading, notWaiting]

theorem ModesServe.modeSound {s : State} (h : ModesServe s) : ModeSound s := ⟨startSound_of_loaded h.1 h.2.1, h.2.2⟩

/-- The two parts of the soundness of the fault sets: the sets among themselves, and with mode and relay. -/
theorem faultsSound_iff {m : ModeCtl} (started : m.mode ≠ .start) :
    FaultsSound m ↔ SetsSound m ∧ m.relay = relayIn m.mode ∧ (m.mode = .fault ↔ hasStopClass m.latched = true) := by
  unfold SetsSound
  constructor
  · rintro ⟨relay, mode, within, notBad, first⟩
    exact ⟨⟨within, notBad, first⟩, relay, mode started⟩
  · rintro ⟨⟨within, notBad, first⟩, relay, mode⟩
    exact ⟨relay, fun _ => mode, within, notBad, first⟩

theorem SetsMove.hasStopClass {m m' : ModeCtl} (h : SetsMove m m') : hasStopClass m'.latched = hasStopClass m.latched :=
  hasStopClass_congr fun k stop => hasFault_of_dropFault_eq h.2.1 (by rintro rfl; exact absurd stop (by decide))

theorem SetsMove.mode {m m' : ModeCtl} (h : SetsMove m m') : m'.mode = m.mode := by rw [h.1]

theorem SetsMove.stormDemand {s t : State} (h : SetsMove s.modeCtl t.modeCtl) : stormDemand t = stormDemand s := by
  unfold Machine.stormDemand
  rw [h.1]

theorem Loaded.setsMove {s t : State} (h : Loaded s) (loader : t.loader = s.loader) (moves : SetsMove s.modeCtl t.modeCtl) : Loaded t := by
  obtain ⟨read, notReset, notReading, notWaiting, config⟩ := h
  unfold Loaded condition
  rw [loader, moves.2.2.1]
  exact ⟨read, notReset, notReading, notWaiting, config⟩

/-- Operations that move the fault sets alone, as a plan or the end of a move does, leave modes, faults and storm sound. -/
theorem ModesServe.setsMove {s t : State} (h : ModesServe s) (loader : t.loader = s.loader) (moves : SetsMove s.modeCtl t.modeCtl) :
    ModesServe t := by
  obtain ⟨loaded, started, faults, storm⟩ := h
  obtain ⟨sets, relay, mode⟩ := (faultsSound_iff started).mp faults
  have startedAfter : t.modeCtl.mode ≠ .start := by rwa [moves.mode]
  refine ⟨loaded.setsMove loader moves, startedAfter, (faultsSound_iff startedAfter).mpr ⟨moves.2.2.2 sets, ?_, ?_⟩, ?_⟩
  · rw [moves.1]; exact relay
  · rw [moves.mode, moves.hasStopClass]; exact mode
  · unfold StormSound
    rw [moves.stormDemand, moves.1]
    exact storm

/-! ### Transitions -/

theorem saveAfter_isSome_of_storm (s : State) : (saveAfter .storm s).isSome := by
  unfold saveAfter
  rw [if_neg (by simp)]
  split
  · rfl
  · next taken => exact Option.isSome_iff_ne_none.mpr fun none => taken ⟨rfl, none⟩

theorem saveAfter_isSome {new : Mode} {s : State} (started : new ≠ .start) (h : (saveAfter new s).isSome) : new = .storm ∨ new = .fault := by
  unfold saveAfter at h
  cases new <;> simp_all

/-- A transition leaves modes, faults and storm sound, if the new mode is that of the latched set and of the storm demand (R149, R161, R164). -/
theorem modesServe_enterMode {new : Mode} {s : State} (loaded : Loaded s) (sets : SetsSound s.modeCtl) (started : new ≠ .start)
    (fault : new = .fault ↔ hasStopClass s.modeCtl.latched = true) (calm : new = .auto ∨ new = .loc → stormDemand s = false)
    (storm : new = .storm → stormDemand s = true) : ModesServe (enterMode new s) := by
  have moves := enterMode_faults new s
  have demand : stormDemand (enterMode new s) = stormDemand s :=
    SetsMove.stormDemand (s := s.withModeCtl (modeEntered new s)) moves
  have mode : (enterMode new s).modeCtl.mode = new := moves.mode
  have startedAfter : (enterMode new s).modeCtl.mode ≠ .start := by rwa [mode]
  refine ⟨Loaded.setsMove (s := s.withModeCtl (modeEntered new s)) loaded (enterMode_loader ..) moves, startedAfter,
    (faultsSound_iff startedAfter).mpr ⟨moves.2.2.2 sets, ?_, ?_⟩, ?_⟩
  · rw [moves.1]; rfl
  · rw [mode, moves.hasStopClass]; exact fault
  · unfold StormSound
    rw [demand, mode]
    have clear : (enterMode new s).modeCtl.stormClear = none := by rw [moves.1]; rfl
    have save : (enterMode new s).modeCtl.save = saveAfter new s := by rw [moves.1]; rfl
    rw [clear, save]
    refine ⟨calm, ⟨fun h => absurd h (by simp), fun ⟨stormy, quiet⟩ => ?_⟩, ?_, saveAfter_isSome started⟩
    · rw [storm stormy] at quiet; cases quiet
    · rintro rfl; exact saveAfter_isSome_of_storm s

/-! ### Raised kinds -/

theorem subset_foldl_addFault (ks : List FaultKind) {a l : FaultSet} (h : a &&& l = a) :
    ks.foldl (fun f k => addFault k f) a &&& ks.foldl (fun f k => addFault k f) l = ks.foldl (fun f k => addFault k f) a := by
  induction ks generalizing a l with
  | nil => exact h
  | cons k ks ih => exact ih (subset_addFault k h)

theorem foldl_addFault_eq_zero {ks : List FaultKind} {f : FaultSet} (h : ks.foldl (fun f k => addFault k f) f = 0) : ks = [] ∧ f = 0 := by
  induction ks generalizing f with
  | nil => exact ⟨rfl, h⟩
  | cons k ks ih => exact absurd (ih h).2 (addFault_ne_zero k f)

theorem mem_becomingActive {ks : List FaultKind} {s : State} {k : FaultKind} :
    k ∈ becomingActive ks s ↔ k ∈ ks ∧ hasFault k s.modeCtl.active = false := by
  simp [becomingActive]

theorem mem_enteringLatched {ks : List FaultKind} {s : State} {k : FaultKind} :
    k ∈ enteringLatched ks s ↔ k ∈ becomingActive ks s ∧ hasFault k s.modeCtl.latched = false := by
  simp [enteringLatched]

/-- With nothing latched every kind that becomes active enters. -/
theorem enteringLatched_of_zero {ks : List FaultKind} {s : State} (h : s.modeCtl.latched = 0) : enteringLatched ks s = becomingActive ks s := by
  simp [enteringLatched, h]

theorem hasFault_latchKinds_active (k : FaultKind) (ks : List FaultKind) (s : State) :
    hasFault k (latchKinds ks s).modeCtl.active = (hasFault k s.modeCtl.active || decide (k ∈ becomingActive ks s)) :=
  hasFault_foldl_addFault ..

theorem hasFault_latchKinds_latched (k : FaultKind) (ks : List FaultKind) (s : State) :
    hasFault k (latchKinds ks s).modeCtl.latched = (hasFault k s.modeCtl.latched || decide (k ∈ becomingActive ks s)) :=
  hasFault_foldl_addFault ..

theorem latchKinds_frame (ks : List FaultKind) (s : State) :
    (latchKinds ks s).modeCtl =
      { s.modeCtl with
        active := (latchKinds ks s).modeCtl.active, latched := (latchKinds ks s).modeCtl.latched
        firstFault := (latchKinds ks s).modeCtl.firstFault } := rfl

/-- Kinds that become active together leave the sets sound (R160 to R162). -/
theorem latchKinds_setsSound {ks : List FaultKind} {s : State} (planBad : ∀ k ∈ ks, k ≠ .planBad) (h : SetsSound s.modeCtl) :
    SetsSound (latchKinds ks s).modeCtl := by
  obtain ⟨within, notBad, first⟩ := h
  refine ⟨subset_foldl_addFault _ within, ?_, ?_⟩
  · rw [hasFault_latchKinds_active, notBad, Bool.false_or, decide_eq_false_iff_not]
    exact fun h => planBad _ (mem_becomingActive.mp h).1 rfl
  · constructor
    · intro none
      simp only [latchKinds, State.withModeCtl_modeCtl] at none ⊢
      split at none
      · next empty =>
        rw [enteringLatched_of_zero empty] at none
        cases risen : becomingActive ks s with
        | nil => exact empty
        | cons k rest => rw [risen] at none; cases none
      · next latched => exact absurd (first.mp none) latched
    · intro empty
      obtain ⟨risen, latched⟩ := foldl_addFault_eq_zero empty
      simp only [latchKinds, State.withModeCtl_modeCtl, if_pos latched, enteringLatched_of_zero latched, risen, List.head?_nil]
      exact first.mpr latched

theorem loaded_latchKinds {s : State} (ks : List FaultKind) (h : Loaded s) : Loaded (latchKinds ks s) := by
  obtain ⟨read, notReset, notReading, notWaiting, config⟩ := h
  refine ⟨read, notReset, notReading, notWaiting, fun rejected => ?_⟩
  have active : hasFault .config s.modeCtl.active = true := config rejected
  rw [condition, hasFault_latchKinds_active, active, Bool.true_or]

theorem ModesServe.raise {s : State} {ks : List FaultKind} (planBad : ∀ k ∈ ks, k ≠ .planBad) (h : ModesServe s) : ModesServe (raise ks s) := by
  obtain ⟨loaded, started, faults, storm⟩ := h
  obtain ⟨sets, relay, mode⟩ := (faultsSound_iff started).mp faults
  have setsAfter := latchKinds_setsSound planBad sets
  unfold Machine.raise
  split
  · next stops =>
    obtain ⟨-, any⟩ := Bool.and_eq_true_iff.mp stops
    obtain ⟨k, enters, stop⟩ := List.any_eq_true.mp any
    refine modesServe_enterMode (loaded_latchKinds ks loaded) setsAfter (by simp) ?_ (by simp) (by simp)
    refine iff_of_true rfl (hasStopClass_iff.mpr ⟨k, stop, ?_⟩)
    rw [hasFault_latchKinds_latched, decide_eq_true (mem_enteringLatched.mp enters).1, Bool.or_true]
  · next stays =>
    refine ⟨loaded_latchKinds ks loaded, started, (faultsSound_iff (m := (latchKinds ks s).modeCtl) started).mpr ⟨setsAfter, relay, ?_⟩, storm⟩
    change s.modeCtl.mode = .fault ↔ _
    constructor
    · intro fault
      obtain ⟨k, stop, latched⟩ := hasStopClass_iff.mp (mode.mp fault)
      exact hasStopClass_iff.mpr ⟨k, stop, by rw [hasFault_latchKinds_latched, latched, Bool.true_or]⟩
    · intro stopped
      obtain ⟨k, stop, latched⟩ := hasStopClass_iff.mp stopped
      rw [hasFault_latchKinds_latched] at latched
      by_contra serves
      have canFault : canFault s.modeCtl.mode = true := by
        revert started serves; cases s.modeCtl.mode <;> simp [Machine.canFault, relayIn]
      cases before : hasFault k s.modeCtl.latched with
      | true => exact serves (mode.mpr (hasStopClass_iff.mpr ⟨k, stop, before⟩))
      | false =>
        rw [before, Bool.false_or, decide_eq_true_eq] at latched
        exact stays (by rw [canFault, Bool.true_and]; exact List.any_eq_true.mpr ⟨k, mem_enteringLatched.mpr ⟨latched, before⟩, stop⟩)

theorem foldl_dropFault_subset (ks : List FaultKind) {a l : FaultSet} (h : a &&& l = a) :
    ks.foldl (fun f k => dropFault k f) a &&& l = ks.foldl (fun f k => dropFault k f) a := by
  induction ks generalizing a with
  | nil => exact h
  | cons k ks ih => exact ih (subset_dropFault k h)

theorem hasFault_foldl_dropFault (k : FaultKind) (ks : List FaultKind) (f : FaultSet) :
    hasFault k (ks.foldl (fun f k => dropFault k f) f) = (hasFault k f && !decide (k ∈ ks)) := by
  induction ks generalizing f with
  | nil => simp
  | cons j ks ih =>
    rw [List.foldl_cons, ih, hasFault_dropFault, Bool.and_assoc]
    by_cases same : k = j <;> simp [same]

theorem clearKinds_faults {ks : List FaultKind} (s : State) (config : ∀ k ∈ ks, k ≠ .config) :
    SetsMove s.modeCtl (clearKinds ks s).modeCtl := by
  refine ⟨rfl, rfl, ?_, fun ⟨within, notBad, first⟩ => ⟨foldl_dropFault_subset ks within, ?_, first⟩⟩
  · change hasFault _ (ks.foldl _ _) = _
    rw [hasFault_foldl_dropFault, decide_eq_false fun h => config _ h rfl, Bool.not_false, Bool.and_true]
  · change hasFault _ (ks.foldl _ _) = _
    rw [hasFault_foldl_dropFault, notBad, Bool.false_and]

/-! ### The storm conditions and the keys -/

/-- The state between the change of the storm conditions and the entry into STORM that they may make (R154, R156). -/
def conditionsSet (order input level : Bool) (s : State) : State :=
  stormTimerAfter s (s.withModeCtl { s.modeCtl with condOrder := order, condInput := input, condLevel := level })

theorem setConditions_eq (order input level : Bool) (s : State) :
    setConditions order input level s = serveStorm (conditionsSet order input level s) := rfl

theorem conditionsSet_modeCtl (order input level : Bool) (s : State) :
    (conditionsSet order input level s).modeCtl =
      { s.modeCtl with
        condOrder := order, condInput := input, condLevel := level
        stormClear := (conditionsSet order input level s).modeCtl.stormClear } := rfl

theorem conditionsSet_stormClear (order input level : Bool) (s : State) :
    (conditionsSet order input level s).modeCtl.stormClear =
      if stormDemand (conditionsSet order input level s) then none
      else if stormDemand s ∧ s.modeCtl.mode = .storm then some 0 else s.modeCtl.stormClear := rfl

theorem setConditions_mode (order input level : Bool) (s : State) :
    (setConditions order input level s).modeCtl.mode =
      if stormDemand (conditionsSet order input level s) = true ∧ (s.modeCtl.mode = .auto ∨ s.modeCtl.mode = .loc) then .storm
      else s.modeCtl.mode := by
  rw [setConditions_eq]
  unfold serveStorm
  split
  · next serves => exact (enterMode_faults ..).mode.trans (if_pos serves).symm
  · next quiet => exact (if_neg quiet).symm

theorem setConditions_demand (order input level : Bool) (s : State) :
    stormDemand (setConditions order input level s) = stormDemand (conditionsSet order input level s) := by
  rw [setConditions_eq]
  unfold serveStorm
  split
  · exact SetsMove.stormDemand (s := (conditionsSet order input level s).withModeCtl (modeEntered .storm (conditionsSet order input level s))) (enterMode_faults ..)
  · rfl

theorem ModesServe.setConditions {s : State} (order input level : Bool) (h : ModesServe s) : ModesServe (setConditions order input level s) := by
  obtain ⟨loaded, started, faults, calm, clear, held, save⟩ := h
  obtain ⟨sets, relay, mode⟩ := (faultsSound_iff started).mp faults
  rw [setConditions_eq]
  unfold serveStorm
  split
  · next serves =>
    obtain ⟨demand, serving⟩ := serves
    refine modesServe_enterMode loaded sets (by simp) (iff_of_false (by simp) ?_) (by simp) fun _ => demand
    intro stopped
    have fault : s.modeCtl.mode = .fault := mode.mpr stopped
    change s.modeCtl.mode = .auto ∨ s.modeCtl.mode = .loc at serving
    simp [fault] at serving
  · next quiet =>
    refine ⟨loaded, started, faults, fun serving => ?_, ?_, held, save⟩
    · by_contra demand
      exact quiet ⟨Bool.eq_true_of_not_eq_false demand, serving⟩
    · rw [conditionsSet_stormClear]
      change _ ↔ s.modeCtl.mode = .storm ∧ _
      cases stormDemand (conditionsSet order input level s) with
      | true => simp
      | false =>
        simp only [Bool.false_eq_true, if_false, and_true]
        split
        · next restarts => simp [restarts.2]
        · next runsOn =>
          rw [clear]
          refine ⟨And.left, fun storm => ⟨storm, ?_⟩⟩
          by_contra before
          exact runsOn ⟨Bool.eq_true_of_not_eq_false before, storm⟩

theorem keyMode_mem (s : State) : keyMode s = .auto ∨ keyMode s = .loc ∨ keyMode s = .maint := by
  unfold keyMode
  split
  · exact .inr (.inr rfl)
  · split
    · exact .inr (.inl rfl)
    · exact .inl rfl

/-- A transition to the key-implied mode, in a station that is neither in FAULT nor under a storm demand. -/
theorem ModesServe.enterKeyMode {s : State} (h : ModesServe s) (notFault : s.modeCtl.mode ≠ .fault) (calm : stormDemand s = false) :
    ModesServe (enterMode (keyMode s) s) := by
  obtain ⟨loaded, started, faults, -⟩ := h
  obtain ⟨sets, -, mode⟩ := (faultsSound_iff started).mp faults
  have keys := keyMode_mem s
  refine modesServe_enterMode loaded sets ?_ (iff_of_false ?_ fun stopped => notFault (mode.mpr stopped)) (fun _ => calm) ?_
  · rcases keys with k | k | k <;> simp [k]
  · rcases keys with k | k | k <;> simp [k]
  · intro storm; rcases keys with k | k | k <;> simp [k] at storm

theorem ModesServe.sampleKeys {s : State} (maintKey localKey stormInput : Bool) (h : ModesServe s) :
    ModesServe (sampleKeys maintKey localKey stormInput s) := by
  have judged : ModesServe (Machine.setConditions s.modeCtl.condOrder stormInput s.modeCtl.condLevel
      (s.withModeCtl { s.modeCtl with maintKey := maintKey, localKey := localKey, stormInput := stormInput })) :=
    ModesServe.setConditions (s := s.withModeCtl _) _ _ _ h
  have modes := setConditions_mode s.modeCtl.condOrder stormInput s.modeCtl.condLevel
      (s.withModeCtl { s.modeCtl with maintKey := maintKey, localKey := localKey, stormInput := stormInput })
  unfold Machine.sampleKeys
  dsimp only
  generalize Machine.setConditions s.modeCtl.condOrder stormInput s.modeCtl.condLevel
      (s.withModeCtl { s.modeCtl with maintKey := maintKey, localKey := localKey, stormInput := stormInput }) = t at judged modes
  have notFault (serving : s.modeCtl.mode ≠ .fault) : t.modeCtl.mode ≠ .fault := by
    rw [modes]
    split
    · simp
    · exact serving
  have toKeys (serving : s.modeCtl.mode ≠ .fault) (calm : ¬ stormDemand t = true) : ModesServe (enterMode (keyMode t) t) :=
    judged.enterKeyMode (notFault serving) (Bool.eq_false_of_not_eq_true calm)
  split
  · next auto =>
    split
    · exact judged
    · next calm =>
      split
      · exact judged
      · exact toKeys (by simp [auto]) calm
  · next loc =>
    split
    · exact judged
    · next calm =>
      split
      · exact judged
      · exact toKeys (by simp [loc]) calm
  · next maint =>
    split
    · exact judged
    · split
      · next demand =>
        obtain ⟨loaded, started, faults, -⟩ := judged
        obtain ⟨sets, -, mode⟩ := (faultsSound_iff started).mp faults
        exact modesServe_enterMode loaded sets (by simp)
          (iff_of_false (by simp) fun stopped => notFault (by simp [maint]) (mode.mpr stopped)) (by simp) fun _ => demand
      · next calm => exact toKeys (by simp [maint]) calm
  · exact judged

/-! ### Time, storm end, commands -/

theorem runTimer_isSome (dt : Nat) (t : Option Nat) : (runTimer dt t).isSome = t.isSome := by simp [runTimer]

theorem ModesServe.elapse {s : State} (dt : Nat) (h : ModesServe s) : ModesServe (elapse dt s) := by
  obtain ⟨⟨read, notReset, notReading, notWaiting, config⟩, started, faults, calm, clear, rest⟩ := h
  have running : Machine.elapse dt s = _ := if_neg (by simp [notReset])
  rw [running]
  refine ⟨⟨read, notReset, notReading, ?_, config⟩, started, faults, calm, ?_, rest⟩
  · simp [notWaiting, runTimer]
  · rw [runTimer_isSome]; exact clear

theorem ModesServe.endStorm {s : State} (img : Image) (h : ModesServe s) : ModesServe (endStorm img s) := by
  unfold Machine.endStorm
  split
  · next age storm clears =>
    have later : ModesServe (runOn age (img.params.stormClearTime * 1000) s) := h.elapse _
    have modeCtl := elapse_modeCtl (img.params.stormClearTime * 1000 - age) s
    have mode : (runOn age (img.params.stormClearTime * 1000) s).modeCtl.mode = .storm := by
      rw [runOn, modeCtl]; exact storm
    refine later.enterKeyMode (by simp [mode]) ?_
    have calm : stormDemand s = false := (h.2.2.2.2.1.mp (by simp [clears])).2
    unfold stormDemand at *
    rw [runOn, modeCtl]
    exact calm
  · exact h

theorem ModesServe.abandon {s : State} (h : ModesServe s) : ModesServe (doAbandon s).1 := by
  unfold doAbandon
  split
  · exact h
  · split
    · have ended : ModesServe (abandonPlan s) := h.setsMove (by simp) (by rw [abandonPlan_modeCtl]; exact .refl _)
      obtain ⟨loaded, started, faults, calm, clear, held, save⟩ := ended
      unfold abandonSave
      split
      · next fault => exact ⟨loaded, started, faults, calm, clear, by simpa using held, by simpa using save⟩
      · exact ⟨loaded, started, faults, calm, clear, held, save⟩
    · split <;> exact h

/-- The kinds that CLEAR_FAULT keeps leave the sets sound (R163). -/
theorem SetsSound.cleared {s : State} (h : SetsSound s.modeCtl) : SetsSound (unlatch (s.modeCtl.latched &&& s.modeCtl.active) s).modeCtl := by
  obtain ⟨within, notBad, first⟩ := h
  refine ⟨?_, notBad, ?_⟩
  · change s.modeCtl.active &&& (s.modeCtl.latched &&& s.modeCtl.active) = s.modeCtl.active
    rw [← BitVec.and_assoc, within, BitVec.and_self]
  · change (if s.modeCtl.latched &&& s.modeCtl.active = 0 then none else s.modeCtl.firstFault) = none ↔
      s.modeCtl.latched &&& s.modeCtl.active = 0
    split
    · next gone => simp [gone]
    · next left =>
      refine ⟨fun none => absurd ?_ left, fun gone => absurd gone left⟩
      rw [first.mp none]
      exact BitVec.zero_and

theorem ModesServe.clearFault {s : State} (h : ModesServe s) : ModesServe (doClearFault s).1 := by
  obtain ⟨loaded, started, faults, calm, clear, held, save⟩ := h
  obtain ⟨sets, relay, mode⟩ := (faultsSound_iff started).mp faults
  have setsAfter := sets.cleared
  have kept : hasStopClass (s.modeCtl.latched &&& s.modeCtl.active) = true → hasStopClass s.modeCtl.latched = true := by
    intro stopped
    obtain ⟨k, stop, both⟩ := hasStopClass_iff.mp stopped
    simp only [hasFault, BitVec.getLsbD_and, Bool.and_eq_true] at both
    exact hasStopClass_iff.mpr ⟨k, stop, both.1⟩
  unfold doClearFault
  split
  · exact ⟨loaded, started, faults, calm, clear, held, save⟩
  · unfold leaveFault
    split
    · next leaves =>
      obtain ⟨-, free⟩ := leaves
      have keys := keyMode_mem (unlatch (s.modeCtl.latched &&& s.modeCtl.active) s)
      refine modesServe_enterMode loaded setsAfter ?_ (iff_of_false ?_ (by simp [free])) ?_ ?_
      all_goals split
      all_goals rcases keys with k | k | k <;> simp_all
    · next stays =>
      refine ⟨loaded, started, (faultsSound_iff (m := (unlatch (s.modeCtl.latched &&& s.modeCtl.active) s).modeCtl) started).mpr ⟨setsAfter, relay, ?_⟩, calm, clear, held, save⟩
      change s.modeCtl.mode = .fault ↔ hasStopClass (s.modeCtl.latched &&& s.modeCtl.active) = true
      refine ⟨fun fault => ?_, fun stopped => mode.mpr (kept stopped)⟩
      by_contra free
      exact stays ⟨fault, Bool.eq_false_of_not_eq_true free⟩

theorem ClaimMoves.sameModes {img : Image} {s t : State} (h : ClaimMoves img s t) : t.loader = s.loader ∧ t.modeCtl = s.modeCtl := by
  cases h <;> simp

theorem driven_sameModes (img : Image) (readbackL readbackR : Half) (s : State) :
    (driven img readbackL readbackR s).loader = s.loader ∧ (driven img readbackL readbackR s).modeCtl = s.modeCtl := by
  simp [driven]

/-- Every shared operation keeps modes, faults and storm sound. -/
theorem modesServe_kept : KeptInService ModesServe where
  frame := fun ⟨loader, _, _, _, modeCtl, _⟩ h => h.setsMove loader (modeCtl ▸ .refl _)
  clearLevel c h := h.setsMove (by simp) (clearKinds_faults _ (by cases c <;> simp [channelKind]))
  raiseLevel ks level h := h.raise fun k hk => by rcases level k hk with rfl | rfl <;> simp
  setConditions _ _ _ h := h.setConditions _ _ _
  elapse dt h := h.elapse dt
  raise _ planBad h := h.raise planBad
  clear _ config h := h.setsMove (by simp) (clearKinds_faults _ config)
  sampleKeys _ _ _ h := h.sampleKeys _ _ _
  endStorm img h := h.endStorm img
  standStill h := h.setsMove (by simp) (standStill_faults _)
  haltStop h := h.setsMove (by simp) (haltStop_faults _)
  claim _ moves h := h.setsMove moves.sameModes.1 (moves.sameModes.2 ▸ .refl _)
  drive img readbackL readbackR h := h.setsMove (driven_sameModes ..).1 ((driven_sameModes img readbackL readbackR _).2 ▸ .refl _)
  takeStep h := h.setsMove (by simp) (takeStep_faults _)
  planAction _ h := h.setsMove (by simp) (takePlanAction_faults _)
  defer _ h := h
  evalPlan img h := h.setsMove (by simp) (evalPlan_faults img _)
  planCounts _ _ h := h
  resume _ _ h := h.setsMove (by simp) (resumePlan_faults _)
  finishAtHold _ h := h
  abandon h := h.abandon

end Sys2Proof.Proofs
end

section
namespace Sys2Proof.Proofs

open Sys2Proof.Machine Sys2Proof.Safety

/-! ### The states after a reset (O55) -/

theorem gateSound_initial (cause : RestartCause) (lasts : Bool) (straps : Nat) : GateSound (State.initial cause lasts straps) := by
  refine ⟨⟨rfl, rfl, rfl⟩, ?_, ⟨fun _ => ⟨rfl, rfl, rfl, rfl, rfl, rfl⟩, by simp [State.initial]⟩, ?_, ?_⟩
  · simp [ClaimSound, State.initial]
  · simp [ValvesInRange, State.initial]
  · simp [ClaimInMode, State.initial]

theorem modeSound_initial (cause : RestartCause) (lasts : Bool) (straps : Nat) : ModeSound (State.initial cause lasts straps) := by
  refine ⟨?_, ?_, ?_⟩
  · cases lasts <;> simp [StartSound, State.initial]
  · simp [FaultsSound, State.initial, relayIn]
  · simp [StormSound, State.initial]

theorem planSound_initial (cause : RestartCause) (lasts : Bool) (straps : Nat) : PlanSound (State.initial cause lasts straps) := by
  simp [PlanSound, InterpInRange, PlanEmpty, State.initial, Interp.cleared, PlanLive]

theorem peersSound_initial (cause : RestartCause) (lasts : Bool) (straps : Nat) : PeersSound (State.initial cause lasts straps) := by
  have empty : ∀ r ∈ (State.initial cause lasts straps).peers.rows, r = { age := 0, content := none } := fun r => List.eq_of_mem_replicate
  refine ⟨rfl, ?_, fun r hr => ?_, fun _ => empty⟩
  · simp only [contentAt, State.initial, List.getD_eq_getElem?_getD, List.getElem?_replicate]
    split <;> rfl
  · rw [empty r hr]
    exact ⟨Nat.zero_le _, fun _ => rfl, fun c hc => absurd hc (by simp)⟩

theorem lineSound_initial (cause : RestartCause) (lasts : Bool) (straps : Nat) : LineSound (State.initial cause lasts straps) := by
  simp [LineSound, State.initial]

theorem positionSound_initial (cause : RestartCause) (lasts : Bool) (straps : Nat) : PositionSound (State.initial cause lasts straps) := by
  simp [PositionSound, EncoderSound, State.initial, EncoderSide.initial]

/-- Settles O55: every part of the initial state is at rest, empty or 0. -/
theorem resetStateIsSound : Obligations.ResetStateIsSound := fun _ _ _ =>
  ⟨gateSound_initial .., modeSound_initial .., planSound_initial .., peersSound_initial .., lineSound_initial .., positionSound_initial ..⟩

/-! ### The step -/

/-- The induction over a step: what the shared operations of a station in service keep, with the resets, the events of the image and the passing of
time in a station that has read none, every step keeps. -/
theorem step_keeps {P Q : State → Prop} (kept : KeptInService P) {s t : State} (sound : Q s) (start : StartSound s)
    (serves : s.loader.image ≠ .unread → P s) (weaken : ∀ {t}, P t → Q t) (clears : ∀ {t}, P t → P (doClearFault t).1)
    (resets : ∀ {t}, AfterReset t → Q t) (frame : ∀ {a b}, SameCore a b → Q a → Q b)
    (elapses : ∀ {s} dt, s.loader.image = .unread → StartSound s → Q s → Q (elapse dt s))
    (image : ∀ {i s}, IsImageEvent i → s.loader.image = .unread → StartSound s → Q s → Q (effect i s))
    (run : step s = .next t) : Q t := by
  unfold step at run
  split at run
  · have last : t = elapse 1 s := (Host.Outcome.next.inj run).symm
    rw [last]
    by_cases unread : s.loader.image = .unread
    · exact elapses 1 unread start sound
    · exact weaken (kept.elapse 1 (serves unread))
  · next i rest _ =>
    have start' : StartSound (s.withPending rest) := start
    have sound' : Q (s.withPending rest) := frame (by simp [SameCore]) sound
    by_cases unread : (s.withPending rest).loader.image = .unread
    · rw [exec_eq_next run]
      refine frame (concludeEvent_sameCore _ _) ?_
      by_cases isReset : IsReset i
      · cases isReset with
        | powerOn supply => exact resets (afterReset_beginReset supply _)
        | restart source target argument tag straps =>
          have stays : effect (.restart source target argument tag straps) (s.withPending rest) = s.withPending rest :=
            arrival_of_not_receiving source _ (receiving_of_not_lineWorks (lineWorks_of_unread unread))
          rw [stays]; exact sound'
      · by_cases isImage : IsImageEvent i
        · exact image isImage unread start' sound'
        · rcases effect_of_unread unread isReset isImage with stays | ⟨dt, runsOn⟩
          · rw [stays]; exact sound'
          · rw [runsOn]; exact elapses dt unread start' sound'
    · exact kept.exec_keeps (kept.frame (by simp [SameCore]) (serves unread)) start' unread (fun _ => weaken) (fun _ => clears)
        (fun _ => resets) frame run

/-! ### The start of a station, as its modes see it -/

/-- Between the acceptance of the image and the first mode: START still stands, with no stop-class kind latched (R149, R183; log 10). -/
def ModesStart (s : State) : Prop :=
  Loaded s ∧ s.modeCtl.mode = .start ∧ SetsSound s.modeCtl ∧ hasStopClass s.modeCtl.latched = false

theorem ModesStart.setsMove {s t : State} (h : ModesStart s) (loader : t.loader = s.loader) (moves : SetsMove s.modeCtl t.modeCtl) :
    ModesStart t := by
  obtain ⟨loaded, start, sets, free⟩ := h
  exact ⟨loaded.setsMove loader moves, moves.mode.trans start, moves.2.2.2 sets, moves.hasStopClass.trans free⟩

theorem ModesStart.raiseLevel {s : State} {ks : List FaultKind} (level : ∀ k ∈ ks, k = .levelUp ∨ k = .levelDn) (h : ModesStart s) :
    ModesStart (raise ks s) := by
  obtain ⟨loaded, start, sets, free⟩ := h
  have stays : raise ks s = latchKinds ks s := by simp [raise, canFault, relayIn, start]
  rw [stays]
  refine ⟨loaded_latchKinds ks loaded, start, latchKinds_setsSound (fun k hk => ?_) sets, hasStopClass_eq_false.mpr fun k stop => ?_⟩
  · rcases level k hk with rfl | rfl <;> simp
  · rw [hasFault_latchKinds_latched, hasStopClass_eq_false.mp free k stop, Bool.false_or, decide_eq_false_iff_not]
    intro rises
    rcases level k (mem_becomingActive.mp rises).1 with rfl | rfl <;> exact absurd stop (by decide)

/-- In START the storm conditions and the keys change no mode (R149). -/
theorem setConditions_of_start {s : State} (order input level : Bool) (h : s.modeCtl.mode = .start) :
    setConditions order input level s = conditionsSet order input level s := by
  have start : (conditionsSet order input level s).modeCtl.mode = .start := h
  rw [setConditions_eq, serveStorm, start]
  simp

theorem sampleKeys_of_start {s : State} (maintKey localKey stormInput : Bool) (h : s.modeCtl.mode = .start) :
    sampleKeys maintKey localKey stormInput s =
      conditionsSet s.modeCtl.condOrder stormInput s.modeCtl.condLevel
        (s.withModeCtl { s.modeCtl with maintKey := maintKey, localKey := localKey, stormInput := stormInput }) := by
  have start : (s.withModeCtl
      { s.modeCtl with maintKey := maintKey, localKey := localKey, stormInput := stormInput }).modeCtl.mode = .start := h
  rw [← setConditions_of_start _ _ _ start]
  unfold sampleKeys
  rw [h]

theorem modesStart_kept : KeptBySample ModesStart where
  frame := fun ⟨loader, _, _, _, modeCtl, _⟩ h => h.setsMove loader (modeCtl ▸ .refl _)
  clearLevel c h := h.setsMove (by simp) (clearKinds_faults _ (by cases c <;> simp [channelKind]))
  raiseLevel _ level h := h.raiseLevel level
  setConditions order input level h := by
    rw [setConditions_of_start _ _ _ h.2.1]
    exact h

theorem firstMode_cases (s : State) :
    (firstMode s = .storm ∧ stormDemand s = true) ∨
      (firstMode s = keyMode s ∧ (keyMode s = .maint ∨ stormDemand s = false)) := by
  unfold firstMode
  split
  · next stormy => exact .inl ⟨rfl, stormy.2⟩
  · next calm =>
    refine .inr ⟨rfl, ?_⟩
    by_contra other
    obtain ⟨notMaint, demand⟩ := not_or.mp other
    exact calm ⟨notMaint, Bool.eq_true_of_not_eq_false demand⟩

theorem firstMode_ne {s : State} : firstMode s ≠ .start ∧ firstMode s ≠ .fault := by
  rcases firstMode_cases s with ⟨first, -⟩ | ⟨first, -⟩
  · simp [first]
  · rcases keyMode_mem s with k | k | k <;> simp [first, k]

/-- The first mode leaves modes, faults and storm sound (R149). -/
theorem ModesStart.enterFirstMode {s : State} (h : ModesStart s) : ModesServe (enterMode (firstMode s) s) := by
  obtain ⟨loaded, -, sets, free⟩ := h
  refine modesServe_enterMode loaded sets firstMode_ne.1 (iff_of_false firstMode_ne.2 (by simp [free])) ?_ ?_
  · intro serving
    rcases firstMode_cases s with ⟨first, -⟩ | ⟨first, maint | calm⟩
    · simp [first] at serving
    · simp [first, maint] at serving
    · exact calm
  · intro storm
    rcases firstMode_cases s with ⟨-, demand⟩ | ⟨first, -⟩
    · exact demand
    · rcases keyMode_mem s with k | k | k <;> simp [first, k] at storm

/-- What an accepted image starts from, with the state `s` of START that the read has ended in. -/
theorem acceptImage_keeps {S P : State → Prop} (sampled : KeptBySample S) (kept : KeptInService P) {img : Image} {inputs : TickInputs}
    {up dn : Half} {s : State}
    (keys : S (sampleKeys inputs.maintKey inputs.localKey inputs.stormInput (holdImage img s)))
    (enters : ∀ t, S t → P (enterMode (firstMode t) t)) : P (acceptImage img inputs up dn s) :=
  kept.evalTick img inputs (enters _ (sampled.levelSample img up dn keys))

theorem modesServe_acceptImage {img : Image} {inputs : TickInputs} {up dn : Half} {s : State} (start : s.modeCtl.mode = .start)
    (sets : SetsSound s.modeCtl) (free : hasStopClass s.modeCtl.latched = false) (notReset : s.loader.inReset = false)
    (notReading : s.loader.reading = false) (notWaiting : s.loader.retryTimer = none) : ModesServe (acceptImage img inputs up dn s) := by
  refine acceptImage_keeps modesStart_kept modesServe_kept ?_ fun t => ModesStart.enterFirstMode
  rw [sampleKeys_of_start _ _ _ (s := holdImage img s) (by simpa using start)]
  exact ⟨⟨by simp [holdImage, conditionsSet, stormTimerAfter], notReset, notReading, notWaiting,
    by simp [holdImage, conditionsSet, stormTimerAfter]⟩, start, sets, free⟩

theorem modesServe_rejectImage {s : State} (sets : SetsSound s.modeCtl) (none : s.modeCtl.active = 0) (notReset : s.loader.inReset = false)
    (notReading : s.loader.reading = false) (notWaiting : s.loader.retryTimer = .none) : ModesServe (rejectImage s) := by
  have rises : FaultKind.config ∈ becomingActive [.config] (s.withLoader { s.loader with image := .rejected }) := by
    simp [becomingActive, none]
  refine modesServe_enterMode ⟨by simp, notReset, notReading, notWaiting, fun _ => ?_⟩
    (latchKinds_setsSound (s := s.withLoader _) (by simp) sets) (by simp) (iff_of_true rfl ?_) (by simp) (by simp)
  · rw [condition, hasFault_latchKinds_active, decide_eq_true rises, Bool.or_true]
  · exact hasStopClass_iff.mpr ⟨.config, rfl, by rw [hasFault_latchKinds_latched, decide_eq_true rises, Bool.or_true]⟩

theorem setsSound_of_faultsSound {m : ModeCtl} (h : FaultsSound m) : SetsSound m := h.2.2

/-- The state as an attempt at the image read ends: the attempt counted, none in progress (R181; log 9). -/
def attempted (s : State) : State := s.withLoader { s.loader with attempts := s.loader.attempts + 1, reading := false }

theorem failAttempt_eq (s : State) :
    failAttempt s =
      if s.loader.reading then
        (if s.loader.attempts + 1 < 4 then (attempted s).withLoader { (attempted s).loader with retryTimer := some 0 }
         else rejectImage (attempted s))
      else s := rfl

theorem completeRead_of_reading {bytes : List Byte} {inputs : TickInputs} {up dn : Half} {s : State} (reading : s.loader.reading = true)
    (whole : bytes.length = 2048) :
    completeRead bytes inputs up dn s =
      match checkedImage s.loader.strap bytes with
      | some img => acceptImage img inputs up dn (hearLine inputs.line (attempted s))
      | none => rejectImage (hearLine inputs.line (attempted s)) := if_pos ⟨reading, whole⟩

/-- A whole read ends with the image accepted or rejected (R182). -/
theorem completeRead_cases (bytes : List Byte) (inputs : TickInputs) (up dn : Half) (s : State) :
    completeRead bytes inputs up dn s = s ∨
      s.loader.reading = true ∧
        (completeRead bytes inputs up dn s = rejectImage (hearLine inputs.line (attempted s)) ∨
          ∃ img, completeRead bytes inputs up dn s = acceptImage img inputs up dn (hearLine inputs.line (attempted s))) := by
  by_cases complete : s.loader.reading = true ∧ bytes.length = 2048
  · refine .inr ⟨complete.1, ?_⟩
    rw [completeRead_of_reading complete.1 complete.2]
    split
    · exact .inr ⟨_, rfl⟩
    · exact .inl rfl
  · exact .inl (if_neg complete)

/-- Time keeps modes, faults and storm sound. -/
theorem modeSound_elapse {s : State} (dt : Nat) (h : ModeSound s) : ModeSound (elapse dt s) := by
  cases lasts : s.loader.inReset with
  | true => rw [elapse_of_reset lasts]; exact h
  | false =>
    obtain ⟨⟨mode, empty, config, -, reads, readNoWait, waits⟩, faults, calm, clear, rest⟩ := h
    have running : elapse dt s = _ := if_neg (by simp [lasts])
    rw [running]
    refine ⟨⟨mode, empty, config, fun reset => ?_, reads, fun reading => ?_, fun waiting => ?_⟩, faults, calm, ?_, rest⟩
    · change s.loader.inReset = true at reset
      simp [lasts] at reset
    · change runTimer dt s.loader.retryTimer = none
      rw [readNoWait reading]; rfl
    · change (runTimer dt s.loader.retryTimer).isSome at waiting
      rw [runTimer_isSome] at waiting
      exact waits waiting
    · rw [runTimer_isSome]; exact clear

/-- The wait of an attempt runs in START alone, out of a reset (R181). -/
theorem startSound_waiting {s : State} (h : StartSound s) (waits : s.loader.retryTimer.isSome) :
    s.loader.image = .unread ∧ s.loader.inReset = false := by
  obtain ⟨-, -, -, reset, -, -, waiting⟩ := h
  refine ⟨waiting waits, ?_⟩
  by_contra lasts
  simp [(reset (Bool.eq_true_of_not_eq_false lasts)).2.2] at waits

theorem startSound_reading {s : State} (h : StartSound s) (reads : s.loader.reading = true) :
    s.modeCtl.mode = .start ∧ s.loader.image = .unread ∧ s.loader.inReset = false ∧ s.loader.retryTimer = none := by
  obtain ⟨mode, -, -, reset, reading, noWait, -⟩ := h
  refine ⟨mode.mpr (reading reads), reading reads, ?_, noWait reads⟩
  by_contra lasts
  simp [(reset (Bool.eq_true_of_not_eq_false lasts)).2.1] at reads

/-- The events of the image, in a station that has read none, keep modes, faults and storm sound. -/
theorem modeSound_image {i : Instr} {s : State} (image : IsImageEvent i) (unread : s.loader.image = .unread) (h : ModeSound s) :
    ModeSound (effect i s) := by
  obtain ⟨start, faults, storm⟩ := id h
  have sets := setsSound_of_faultsSound faults
  obtain ⟨noActive, noLatched⟩ := start.2.1 unread
  have rejects {t : State} (reading : s.loader.reading = true) (loader : t.loader = (attempted s).loader) (modes : t.modeCtl = s.modeCtl) :
      ModeSound (rejectImage t) := by
    obtain ⟨-, -, notReset, notWaiting⟩ := startSound_reading start reading
    exact (modesServe_rejectImage (s := t) (by rwa [modes]) (by rwa [modes]) (by rw [loader]; exact notReset) (by rw [loader]; rfl)
      (by rw [loader]; exact notWaiting)).modeSound
  cases image with
  | resetEnd straps =>
    simp only [effect, endReset]
    split
    · exact modeSound_initial ..
    · exact h
  | failed =>
    simp only [effect, failAttempt_eq]
    split
    · next reading =>
      obtain ⟨-, -, notReset, -⟩ := startSound_reading start reading
      split
      · exact ⟨⟨start.1, start.2.1, start.2.2.1, by simp [attempted, notReset], by simp [attempted], by simp [attempted],
          fun _ => unread⟩, faults, storm⟩
      · exact rejects reading rfl rfl
    · exact h
  | retry =>
    simp only [effect, beginRetry]
    split
    · exact h
    · next age waits =>
      obtain ⟨-, notReset⟩ := startSound_waiting start (by simp [waits])
      have unreadAfter : (runOn age Config.retryMs s).loader.image = .unread := by rw [runOn, elapse_image]; exact unread
      have notResetAfter : (runOn age Config.retryMs s).loader.inReset = false := by rw [runOn, elapse_inReset]; exact notReset
      obtain ⟨⟨mode, empty, config, -, -, -, -⟩, faults, storm⟩ := modeSound_elapse (Config.retryMs - age) h
      exact ⟨⟨mode, empty, config, by simp [notResetAfter], fun _ => unreadAfter, fun _ => rfl, by simp⟩, faults, storm⟩
  | complete bytes inputs up dn =>
    simp only [effect]
    rcases completeRead_cases bytes inputs up dn s with stays | ⟨reading, rejected | ⟨img, accepted⟩⟩
    · rw [stays]; exact h
    · rw [rejected]; exact rejects reading rfl rfl
    · obtain ⟨mode, -, notReset, notWaiting⟩ := startSound_reading start reading
      rw [accepted]
      refine (modesServe_acceptImage (s := hearLine inputs.line (attempted s)) mode sets ?_ notReset rfl notWaiting).modeSound
      change hasStopClass s.modeCtl.latched = false
      simp [noLatched, hasStopClass]

theorem modeSound_afterReset {t : State} (h : AfterReset t) : ModeSound t := by
  obtain ⟨cause, lasts, straps, queue, rfl⟩ := h
  exact modeSound_initial cause lasts straps

theorem modeSound_frame {s t : State} (h : SameCore s t) (sound : ModeSound s) : ModeSound t := by
  obtain ⟨loader, -, -, -, modeCtl, -⟩ := h
  unfold ModeSound StartSound StormSound condition stormDemand
  rw [loader, modeCtl]
  exact sound

/-- Settles O57, by the induction over a step. -/
theorem everyStepKeepsModeSound : Obligations.EveryStepKeepsModeSound := fun _ _ sound run =>
  step_keeps modesServe_kept sound sound.1 (modesServe_of_modeSound sound) ModesServe.modeSound ModesServe.clearFault modeSound_afterReset
    modeSound_frame (fun dt _ _ => modeSound_elapse dt) (fun image unread _ => modeSound_image image unread) run

end Sys2Proof.Proofs
end

section
/-! SUPPORT. Horn, pump, drive enable, claim, mode and valves stay in agreement (O56). -/

namespace Sys2Proof.Proofs

open Sys2Proof.Machine Sys2Proof.Safety

/-! ### The claim and the drive, whatever the mode -/

/-- The soundness of the gate but for what the mode asks of the claim. -/
def ClaimHolds (s : State) : Prop := OutputsFollow s.grant ∧ ClaimSound s.grant ∧ ValvesRest s ∧ ValvesInRange s.drive

theorem gateSound_iff {s : State} : GateSound s ↔ ClaimHolds s ∧ ClaimInMode s.modeCtl.mode s.grant := by
  constructor
  · rintro ⟨outputs, claim, rest, range, mode⟩
    exact ⟨⟨outputs, claim, rest, range⟩, mode⟩
  · rintro ⟨⟨outputs, claim, rest, range⟩, mode⟩
    exact ⟨outputs, claim, rest, range, mode⟩

/-- What the soundness of claim and drive reads of the state. -/
theorem ClaimHolds.congr {s t : State} (grant : t.grant = s.grant) (drive : t.drive = s.drive)
    (codes : ∀ d, nullCode d t = nullCode d s) (h : ClaimHolds s) : ClaimHolds t := by
  unfold ClaimHolds ValvesRest
  rw [grant, drive, codes, codes]
  exact h

theorem gateSound_congr {s t : State} (h : GateSound s) (grant : t.grant = s.grant) (drive : t.drive = s.drive) (loader : t.loader = s.loader)
    (mode : t.modeCtl.mode = s.modeCtl.mode) : GateSound t := by
  rw [gateSound_iff] at *
  rw [mode, grant]
  exact ⟨h.1.congr grant drive fun d => nullCode_congr d loader, h.2⟩

theorem nullCode_le (d : Side) (s : State) : nullCode d s ≤ 16383 := by
  unfold nullCode
  split
  · exact Int.toNat_le.mpr (clampInt_mem (by decide)).2
  · decide

/-- The claim that stands still, in every mode. -/
theorem claimInMode_still (m : Mode) (g : Grant) : ClaimInMode m (claimStill g) := by
  simp [ClaimInMode]

theorem claimSound_still (g : Grant) : OutputsFollow (claimStill g) ∧ ClaimSound (claimStill g) := by
  simp [OutputsFollow, ClaimSound, underWay]

/-- The valves at rest are in range, with the codes null. -/
theorem driveAtRest_holds (s : State) :
    ((driveAtRest s).cmdL = 0 ∧ (driveAtRest s).cmdR = 0 ∧ (driveAtRest s).codeL = nullCode .left s ∧
        (driveAtRest s).codeR = nullCode .right s ∧ (driveAtRest s).runL = 0 ∧ (driveAtRest s).runR = 0) ∧
      (driveAtRest s).stall = none ∧ ValvesInRange (driveAtRest s) := by
  have left := nullCode_le .left s
  have right := nullCode_le .right s
  refine ⟨⟨rfl, rfl, rfl, rfl, rfl, rfl⟩, rfl, ?_⟩
  simp [driveAtRest, ValvesInRange, left, right]

/-- Standing still leaves claim and drive sound, in any mode. -/
theorem claimHolds_standStill {s : State} (h : ClaimHolds s) : ClaimHolds (standStill s) := by
  obtain ⟨-, -, rest, range⟩ := h
  obtain ⟨atRest, stopped, inRange⟩ := driveAtRest_holds s
  have grant := standStill_grant s
  have drive := standStill_drive s
  have codes (d : Side) : nullCode d (standStill s) = nullCode d s := nullCode_congr d (by simp)
  unfold ClaimHolds ValvesRest
  rw [grant, drive, codes, codes]
  obtain ⟨outputs, sound⟩ := claimSound_still s.grant
  refine ⟨outputs, sound, ?_⟩
  split
  · exact ⟨⟨fun _ => atRest, by simp [stopped]⟩, inRange⟩
  · next unmoved => exact ⟨⟨fun _ => rest.1 unmoved, by simpa [unmoved] using rest.2⟩, range⟩

theorem gateSound_standStill {s : State} (h : ClaimHolds s) : GateSound (standStill s) := by
  rw [gateSound_iff, standStill_grant]
  exact ⟨claimHolds_standStill h, claimInMode_still _ _⟩

theorem claimHolds_setpoint {s : State} (setpoint : Nat) (h : ClaimHolds s) : ClaimHolds (s.withDrive { s.drive with setpoint := setpoint }) := h

theorem gateSound_haltStop {s : State} (h : GateSound s) : GateSound (haltStop s) := by
  have holds := (gateSound_iff.mp h).1
  unfold haltStop
  split
  · exact h
  · exact gateSound_standStill (claimHolds_setpoint _ holds)
  · exact gateSound_standStill holds

/-! ### Transitions of the mode -/

/-- A claim that becomes a bypass claim as it is under way stays sound (R101). -/
theorem ClaimHolds.bypassed {s t : State} (h : ClaimHolds s) (drive : t.drive = s.drive) (loader : t.loader = s.loader)
    (underway : s.grant.moveState = .warn ∧ (∃ lead, t.grant =
          { s.grant with moveKind := .bypass, ticket := 0, warnTimer := some 0, warnLead := lead, pumpTimer := none }) ∨
        s.grant.moveState = .moving ∧ t.grant = { s.grant with moveKind := .bypass, ticket := 0 }) : ClaimHolds t := by
  obtain ⟨outputs, ⟨_, _, _, _, _, warns, _⟩, rest, range⟩ := h
  unfold ClaimHolds ValvesRest
  rw [drive, nullCode_congr .left loader, nullCode_congr .right loader]
  rcases underway with ⟨warn, lead, grant⟩ | ⟨moving, grant⟩
  · rw [grant]
    exact ⟨outputs, by simp [ClaimSound, warn, underWay], rest, range⟩
  · have still : s.grant.warnTimer = none := by
      rw [← Option.not_isSome_iff_eq_none, warns, moving]; simp
    rw [grant]
    exact ⟨outputs, by simp [ClaimSound, moving, underWay, still], rest, range⟩

theorem gateSound_claimAtTransition {new : Mode} {s : State} (h : ClaimHolds s) (mode : s.modeCtl.mode = new) (started : new ≠ .start) :
    GateSound (claimAtTransition new s) := by
  have still := gateSound_standStill h
  have halted := gateSound_standStill (s := setpointToOpening s) (claimHolds_setpoint _ h)
  obtain ⟨-, ⟨none, wants, -, -, -, -, -⟩, -, -⟩ := id h
  have bypass {t : State} (holds : ClaimHolds t) (kind : t.grant.moveKind = .bypass) (modeCtl : t.modeCtl = s.modeCtl)
      (other : new = .storm ∨ new = .maint) : GateSound t := by
    rw [gateSound_iff, modeCtl, mode]
    refine ⟨holds, ?_, by simp [kind], fun _ => other⟩
    rcases other with rfl | rfl <;> simp
  have diverted (lead : Nat) (other : new = .storm ∨ new = .maint) : GateSound
      (match s.grant.moveState with
        | .still => s
        | .want => standStill s
        | .warn => (if s.grant.moveKind = MoveKind.granted then setLimited false s else s).withGrant
            { s.grant with moveKind := .bypass, ticket := 0, warnTimer := some 0, warnLead := lead, pumpTimer := .none }
        | .moving => s.withGrant { s.grant with moveKind := .bypass, ticket := 0 }) := by
    split
    · next unmoved =>
      rw [gateSound_iff, mode]
      refine ⟨h, ?_, ?_, ?_⟩
      · rcases other with rfl | rfl <;> simp
      · simp [none.mp unmoved]
      · simp [none.mp unmoved]
    · exact still
    · next warn =>
      split
      · exact bypass (h.bypassed rfl rfl (.inl ⟨warn, lead, rfl⟩)) rfl rfl other
      · exact bypass (h.bypassed rfl rfl (.inl ⟨warn, lead, rfl⟩)) rfl rfl other
    · next moving => exact bypass (h.bypassed rfl rfl (.inr ⟨moving, rfl⟩)) rfl rfl other
  have returned (other : new = .auto ∨ new = .loc) : GateSound
      (if s.grant.moveKind = .bypass then
        match s.grant.moveState with
        | .warn => standStill s
        | .moving => standStill (setpointToOpening s)
        | _ => s
      else s) := by
    split
    · next kind =>
      split
      · exact still
      · exact halted
      · next notWarn notMoving =>
        cases moves : s.grant.moveState with
        | still => rw [none.mp moves] at kind; cases kind
        | want => rw [wants moves] at kind; cases kind
        | warn => exact absurd moves notWarn
        | moving => exact absurd moves notMoving
    · next kind =>
      rw [gateSound_iff, mode]
      refine ⟨h, ?_, fun _ => other, fun bypass => absurd bypass kind⟩
      rcases other with rfl | rfl <;> simp
  cases new with
  | start => exact absurd rfl started
  | fault => exact still
  | storm => exact diverted _ (.inl rfl)
  | maint => exact diverted _ (.inr rfl)
  | auto => exact returned (.inl rfl)
  | loc => exact returned (.inr rfl)

theorem gateSound_enterAuto {s : State} (h : GateSound s) : GateSound (enterAuto s) := by
  have halted : GateSound (if haltInForce s then haltStop s else s) := by
    split
    · exact gateSound_haltStop h
    · exact h
  unfold enterAuto
  generalize (if haltInForce s then haltStop s else s) = t at halted
  dsimp only
  split
  · exact gateSound_congr halted (by simp) (by simp) (by simp) (takePlanAction_faults (t.withOrder _)).mode
  · exact halted

/-- Every transition out of START leaves the gate sound, whatever the mode before (R101, R102). -/
theorem gateSound_enterMode {new : Mode} {s : State} (h : ClaimHolds s) (started : new ≠ .start) : GateSound (enterMode new s) := by
  have holds : ClaimHolds (setMode new (takeStormSave new s)) :=
    h.congr (by simp) (by simp) fun d => nullCode_congr d (by simp)
  have claimed := gateSound_claimAtTransition (new := new) holds rfl started
  unfold enterMode
  dsimp only
  have held : GateSound (if s.modeCtl.mode = .auto then holdPlan (claimAtTransition new (setMode new (takeStormSave new s)))
       else claimAtTransition new (setMode new (takeStormSave new s))) := by
    split
    · exact gateSound_congr claimed (by simp) (by simp) (by simp) (by simp)
    · exact claimed
  generalize (if s.modeCtl.mode = .auto then holdPlan (claimAtTransition new (setMode new (takeStormSave new s)))
       else claimAtTransition new (setMode new (takeStormSave new s))) = t at held
  have restored : GateSound (restoreInto new t) := by
    unfold restoreInto
    split
    · exact gateSound_congr held (by simp) (by simp) (by simp) (restoreSave_faults new t).mode
    · exact held
  split
  · exact gateSound_enterAuto restored
  · exact restored

/-! ### Kinds raised, storm and keys -/

theorem gateSound_raise {s : State} (ks : List FaultKind) (h : GateSound s) : GateSound (raise ks s) := by
  unfold raise
  split
  · exact gateSound_enterMode (gateSound_iff.mp (gateSound_congr h (t := latchKinds ks s) rfl rfl rfl rfl)).1 (by simp)
  · exact h

theorem gateSound_setConditions {s : State} (order input level : Bool) (h : GateSound s) : GateSound (setConditions order input level s) := by
  have set : GateSound (conditionsSet order input level s) := gateSound_congr h rfl rfl rfl rfl
  rw [setConditions_eq]
  unfold serveStorm
  split
  · exact gateSound_enterMode (gateSound_iff.mp set).1 (by simp)
  · exact set

theorem gateSound_toKeys {s : State} (h : GateSound s) : GateSound (enterMode (keyMode s) s) :=
  gateSound_enterMode (gateSound_iff.mp h).1 (by rcases keyMode_mem s with k | k | k <;> simp [k])

theorem gateSound_sampleKeys {s : State} (maintKey localKey stormInput : Bool) (h : GateSound s) :
    GateSound (sampleKeys maintKey localKey stormInput s) := by
  have judged := gateSound_setConditions s.modeCtl.condOrder stormInput s.modeCtl.condLevel
    (s := s.withModeCtl { s.modeCtl with maintKey := maintKey, localKey := localKey, stormInput := stormInput }) h
  have keys := gateSound_toKeys judged
  unfold sampleKeys
  dsimp only
  split
  · split
    · exact judged
    · split <;> assumption
  · split
    · exact judged
    · split <;> assumption
  · split
    · exact judged
    · split
      · exact gateSound_enterMode (gateSound_iff.mp judged).1 (by simp)
      · exact keys
  · exact judged

theorem elapse_nullCode (d : Side) (dt : Nat) (s : State) : nullCode d (elapse dt s) = nullCode d s := by
  simp only [nullCode, acceptedImage_elapse]

theorem gateSound_elapse {s : State} (dt : Nat) (h : GateSound s) : GateSound (elapse dt s) := by
  cases lasts : s.loader.inReset with
  | true => rw [elapse_of_reset lasts]; exact h
  | false =>
    obtain ⟨outputs, ⟨none, wants, tickets, granted, announce, warns, pump⟩, ⟨atRest, stall⟩, range, mode⟩ := h
    have timers (t : Option Nat) : runTimer dt t = .none ↔ t = .none := by simp [runTimer]
    have running : elapse dt s = _ := if_neg (by simp [lasts])
    have codes (d : Side) := elapse_nullCode d dt s
    rw [running] at codes ⊢
    refine ⟨outputs, ⟨none, wants, tickets, fun kind => ?_, fun still => ?_, ?_, fun idle => ?_⟩, ⟨fun unmoved => ?_, ?_⟩, range, mode⟩
    · rw [runTimer_isSome]; exact granted kind
    · rw [timers]; exact announce still
    · rw [runTimer_isSome]; exact warns
    · rw [timers]; exact pump idle
    · rw [codes, codes]; exact atRest unmoved
    · rw [Option.isSome_map]; exact stall

/-! ### The Grant Unit and the Drive Unit -/

theorem newTicket_range (s : State) : 1 ≤ newTicket s ∧ newTicket s ≤ 65535 := by
  unfold newTicket
  omega

/-- A claim goes through the grant in AUTO and LOCAL alone, and a bypass claim in STORM and MAINT alone (R90). -/
theorem admission_mode (img : Image) (s : State) :
    (admission img s = .throughGrant → s.modeCtl.mode = .auto ∨ s.modeCtl.mode = .loc) ∧
      (∀ lead, admission img s = .bypass lead → s.modeCtl.mode = .storm ∨ s.modeCtl.mode = .maint) := by
  unfold admission
  split
  · simp
  · cases s.modeCtl.mode <;> simp <;> (repeat' split) <;> simp

theorem gateSound_claimMoves {img : Image} {s t : State} (moves : ClaimMoves img s t) (h : GateSound s) : GateSound t := by
  obtain ⟨outputs, ⟨none, wants, tickets, granted, announce, warns, pump⟩, ⟨atRest, stall⟩, range, stands, grants, bypasses⟩ := h
  have serves (moved : s.grant.moveState ≠ .still) : ¬ (s.modeCtl.mode = .start ∨ s.modeCtl.mode = .fault) := fun idle => moved (stands idle).1
  cases moves with
  | want still admits =>
    have mode := (admission_mode img s).1 admits
    have notWarn : s.grant.warnTimer = .none := by rw [← Option.not_isSome_iff_eq_none, warns, still]; simp
    have notPump := pump (by simp [still, underWay])
    refine ⟨⟨rfl, rfl, rfl⟩, ?_, ⟨fun _ => atRest (by simp [still]), ?_⟩, range, ?_⟩
    · have ticket := newTicket_range s
      simp [ClaimSound, enterWant, setLimited, claimIn, notWarn, notPump, ticket]
    · simpa [enterWant, setLimited, claimIn, still] using stall
    · rcases mode with m | m <;> simp [ClaimInMode, enterWant, setLimited, claimIn, m]
  | bypass lead still admits =>
    have mode := (admission_mode img s).2 lead admits
    refine ⟨⟨rfl, rfl, rfl⟩, ?_, ⟨fun _ => atRest (by simp [still]), ?_⟩, range, ?_⟩
    · simp [ClaimSound, enterWarn, setLimited, claimIn, underWay]
    · simpa [enterWarn, setLimited, claimIn, still] using stall
    · rcases mode with m | m <;> simp [ClaimInMode, enterWarn, setLimited, claimIn, m]
  | warn lead want =>
    have kind := wants want
    refine ⟨⟨rfl, rfl, rfl⟩, ?_, ⟨fun _ => atRest (by simp [want]), ?_⟩, range, ?_⟩
    · simpa [ClaimSound, enterWarn, claimIn, underWay] using granted kind
    · simpa [enterWarn, claimIn, want] using stall
    · have mode := grants kind
      rcases mode with m | m <;> simp [ClaimInMode, enterWarn, claimIn, m]
  | yields warn notBypass =>
    have kind : s.grant.moveKind = .granted := by
      cases k : s.grant.moveKind with
      | noClaim => rw [none.mpr k] at warn; cases warn
      | granted => rfl
      | bypass => exact absurd k notBypass
    refine ⟨⟨rfl, rfl, rfl⟩, ?_, ⟨fun _ => atRest (by simp [warn]), ?_⟩, range, ?_⟩
    · simpa [ClaimSound, yieldClaim, claimIn, underWay, kind] using granted kind
    · simpa [yieldClaim, claimIn, warn] using stall
    · have mode := grants kind
      rcases mode with m | m <;> simp [ClaimInMode, yieldClaim, claimIn, m, kind]
  | pumps active =>
    unfold startPump
    split
    · refine ⟨outputs, ⟨none, wants, tickets, granted, announce, warns, fun idle => ?_⟩, ⟨atRest, stall⟩, range, stands, grants, bypasses⟩
      rcases active with a | a <;> simp [a, underWay] at idle
    · exact ⟨outputs, ⟨none, wants, tickets, granted, announce, warns, pump⟩, ⟨atRest, stall⟩, range, stands, grants, bypasses⟩
  | pumped moving =>
    exact ⟨outputs, ⟨none, wants, tickets, granted, announce, warns, fun _ => rfl⟩, ⟨atRest, stall⟩, range, stands, grants, bypasses⟩
  | moves warn =>
    have idle := serves (by simp [warn])
    have claimed : s.grant.moveKind ≠ .noClaim := fun k => by rw [none.mpr k] at warn; cases warn
    refine ⟨⟨rfl, rfl, rfl⟩, ?_, ⟨fun unmoved => absurd rfl unmoved, by simp [enterMoving, claimIn]⟩, range, fun h => absurd h idle, grants, bypasses⟩
    refine ⟨by simp [enterMoving, claimIn, claimed], by simp [enterMoving, claimIn], tickets, granted, by simp [enterMoving, claimIn],
      by simp [enterMoving, claimIn], by simp [enterMoving, claimIn, underWay]⟩

theorem forced_range {upper lower : Bool} {c : Int} (h : -1000 ≤ c ∧ c ≤ 1000) : -1000 ≤ forced upper lower c ∧ forced upper lower c ≤ 1000 := by
  unfold forced
  split
  · exact ⟨by decide, by decide⟩
  · exact h

theorem valveCommand_range (d : Side) (base trim : Int) (upper lower : Bool) :
    -1000 ≤ valveCommand d base trim upper lower ∧ valveCommand d base trim upper lower ≤ 1000 :=
  forced_range (clampInt_mem (by decide))

theorem converterCode_le (command null : Int) : converterCode command null ≤ 16383 := by
  unfold converterCode
  exact Int.toNat_le.mpr (clampInt_mem (by decide)).2

/-- The readback check counts the mismatch runs while drive enable is asserted, and touches nothing else of the drive (R113). -/
theorem checkReadback_drive (img : Image) (readbackL readbackR : Half) (s : State) :
    (checkReadback img readbackL readbackR s).drive =
      { s.drive with
        runL := if s.grant.driveEnable then mismatchRun img.params.valveTol s.drive.codeL readbackL s.drive.runL else s.drive.runL
        runR := if s.grant.driveEnable then mismatchRun img.params.valveTol s.drive.codeR readbackR s.drive.runR else s.drive.runR } := by
  unfold checkReadback
  split <;> rfl

theorem stallWindowNow_isSome (base : Int) (opening : Nat) (w : Option StallWindow) : (stallWindowNow base opening w).isSome = w.isSome := by
  unfold stallWindowNow
  split
  · rfl
  · split <;> rfl

theorem driven_grant (img : Image) (readbackL readbackR : Half) (s : State) : (driven img readbackL readbackR s).grant = s.grant := by
  simp [driven]

theorem driven_of_moving (img : Image) (readbackL readbackR : Half) {s : State} (moving : s.grant.moveState = .moving) :
    (driven img readbackL readbackR s).drive = driveMoving img (checkReadback img readbackL readbackR s) := by
  simp [driven, moving]

theorem driven_of_unmoved (img : Image) (readbackL readbackR : Half) {s : State} (unmoved : s.grant.moveState ≠ .moving)
    (disabled : s.grant.driveEnable = false) :
    (driven img readbackL readbackR s).drive =
      { s.drive with cmdL := 0, cmdR := 0, codeL := nullCode .left s, codeR := nullCode .right s } := by
  simp [driven, unmoved, driveHeld, checkReadback, disabled]

theorem driveMoving_range (img : Image) (s : State) : ValvesInRange (driveMoving img s) := by
  simp only [ValvesInRange, driveMoving]
  exact ⟨(valveCommand_range ..).1, (valveCommand_range ..).2, (valveCommand_range ..).1, (valveCommand_range ..).2, converterCode_le ..,
    converterCode_le ..⟩

theorem gateSound_driven {s : State} (img : Image) (readbackL readbackR : Half) (h : GateSound s) : GateSound (driven img readbackL readbackR s) := by
  obtain ⟨outputs, claim, ⟨atRest, stall⟩, range, mode⟩ := h
  have codes (d : Side) : nullCode d (driven img readbackL readbackR s) = nullCode d s := nullCode_congr d (by simp [driven])
  unfold GateSound ValvesRest
  rw [driven_grant, (driven_sameModes ..).2, codes, codes]
  refine ⟨outputs, claim, ?_⟩
  by_cases moving : s.grant.moveState = .moving
  · rw [driven_of_moving _ _ _ moving]
    refine ⟨⟨fun unmoved => absurd moving unmoved, ?_⟩, driveMoving_range .., mode⟩
    simpa [driveMoving, checkReadback_drive, stallWindowNow_isSome] using stall
  · have disabled : s.grant.driveEnable = false := by rw [outputs.2.2]; simp [moving]
    obtain ⟨-, -, -, -, runL, runR⟩ := atRest moving
    rw [driven_of_unmoved _ _ _ moving disabled]
    refine ⟨⟨fun _ => ⟨rfl, rfl, rfl, rfl, runL, runR⟩, stall⟩, ?_, mode⟩
    simp [ValvesInRange, nullCode_le]

/-! ### The invariant -/

theorem gateSound_frame {s t : State} (h : SameCore s t) (sound : GateSound s) : GateSound t := by
  obtain ⟨loader, grant, drive, -, modeCtl, -⟩ := h
  exact gateSound_congr sound grant drive loader (by rw [modeCtl])

theorem gateSound_endStorm {s : State} (img : Image) (h : GateSound s) : GateSound (endStorm img s) := by
  unfold endStorm
  split
  · exact gateSound_toKeys (gateSound_elapse _ h)
  · exact h

theorem gateSound_abandon {s : State} (h : GateSound s) : GateSound (doAbandon s).1 := by
  unfold doAbandon
  split
  · exact h
  · split
    · refine gateSound_congr h (by simp) (by simp) (by simp) ?_
      unfold abandonSave
      simp only [clearDeferred_modeCtl]
      split <;> simp
    · split <;> exact h

theorem gateSound_clearFault {s : State} (h : GateSound s) : GateSound (doClearFault s).1 := by
  unfold doClearFault
  split
  · exact h
  · unfold leaveFault
    split
    · refine gateSound_enterMode (gateSound_iff.mp (gateSound_congr h (t := unlatch _ s) rfl rfl rfl rfl)).1 ?_
      split
      · simp
      · rcases keyMode_mem (unlatch (s.modeCtl.latched &&& s.modeCtl.active) s) with k | k | k <;> simp [k]
    · exact h

/-- Every shared operation keeps the gate sound. -/
theorem gateSound_kept : KeptInService GateSound where
  frame := gateSound_frame
  clearLevel _ h := h
  raiseLevel ks _ h := gateSound_raise ks h
  setConditions _ _ _ h := gateSound_setConditions _ _ _ h
  elapse dt h := gateSound_elapse dt h
  raise ks _ h := gateSound_raise ks h
  clear _ _ h := h
  sampleKeys _ _ _ h := gateSound_sampleKeys _ _ _ h
  endStorm img h := gateSound_endStorm img h
  standStill h := gateSound_standStill (gateSound_iff.mp h).1
  haltStop h := gateSound_haltStop h
  claim _ moves h := gateSound_claimMoves moves h
  drive img _ _ h := gateSound_driven img _ _ h
  takeStep h := gateSound_congr h (by simp) (by simp) (by simp) (takeStep_faults _).mode
  planAction _ h := gateSound_congr h (by simp) (by simp) (by simp) (takePlanAction_faults _).mode
  defer _ h := h
  evalPlan img h := gateSound_congr h (by simp) (by simp) (by simp) (evalPlan_faults img _).mode
  planCounts _ _ h := h
  resume _ _ h := gateSound_congr h (by simp) (by simp) (by simp) (resumePlan_faults _).mode
  finishAtHold _ h := h
  abandon h := gateSound_abandon h

/-- The acceptance of the image gives the converters their null codes, with the gate still (R120). -/
theorem gateSound_holdImage {img : Image} {s : State} (start : s.modeCtl.mode = .start) (h : GateSound s) : GateSound (holdImage img s) := by
  obtain ⟨outputs, claim, ⟨atRest, stall⟩, range, mode⟩ := h
  have still := (mode.1 (.inl start)).1
  obtain ⟨cmdL, cmdR, -, -, runL, runR⟩ := atRest (by simp [still])
  have left := nullCode_le .left (holdImage img s)
  have right := nullCode_le .right (holdImage img s)
  refine ⟨outputs, claim, ⟨fun _ => ⟨cmdL, cmdR, rfl, rfl, runL, runR⟩, stall⟩, ?_, mode⟩
  obtain ⟨_, _, _, _, -, -⟩ := range
  exact ⟨by assumption, by assumption, by assumption, by assumption, left, right⟩

theorem gateSound_acceptImage {img : Image} {inputs : TickInputs} {up dn : Half} {s : State} (start : s.modeCtl.mode = .start) (h : GateSound s) :
    GateSound (acceptImage img inputs up dn s) :=
  acceptImage_keeps gateSound_kept.toKeptBySample gateSound_kept (gateSound_sampleKeys _ _ _ (gateSound_holdImage start h))
    fun _ sampled => gateSound_enterMode (gateSound_iff.mp sampled).1 firstMode_ne.1

/-- A rejection leaves the converters at the null codes of a station without an image (R120, R166). -/
theorem gateSound_rejectImage {s : State} (unread : s.loader.image = .unread) (h : GateSound s) : GateSound (rejectImage s) := by
  refine gateSound_enterMode (ClaimHolds.congr (s := s) rfl rfl (fun d => ?_) (gateSound_iff.mp h).1) (by simp)
  simp [nullCode, acceptedImage, unread]

theorem gateSound_image {i : Instr} {s : State} (image : IsImageEvent i) (unread : s.loader.image = .unread) (start : StartSound s)
    (h : GateSound s) : GateSound (effect i s) := by
  have mode := start.1.mpr unread
  have tried : GateSound (attempted s) := h
  cases image with
  | resetEnd straps =>
    simp only [effect, endReset]
    split
    · exact gateSound_initial s.loader.cause false straps.toNat
    · exact h
  | failed =>
    simp only [effect, failAttempt_eq]
    split
    · split
      · exact h
      · exact gateSound_rejectImage unread tried
    · exact h
  | retry =>
    simp only [effect, beginRetry]
    split
    · exact h
    · exact gateSound_elapse _ h
  | complete bytes inputs up dn =>
    simp only [effect]
    rcases completeRead_cases bytes inputs up dn s with stays | ⟨-, rejected | ⟨img, accepted⟩⟩
    · rw [stays]; exact h
    · rw [rejected]; exact gateSound_rejectImage unread tried
    · rw [accepted]; exact gateSound_acceptImage mode tried

theorem gateSound_afterReset {t : State} (h : AfterReset t) : GateSound t := by
  obtain ⟨cause, lasts, straps, queue, rfl⟩ := h
  exact gateSound_initial cause lasts straps

/-- Settles O56, by the induction over a step. -/
theorem everyStepKeepsGateSound : Obligations.EveryStepKeepsGateSound := fun _ _ sound start run =>
  step_keeps gateSound_kept sound start (fun _ => sound) id gateSound_clearFault gateSound_afterReset gateSound_frame
    (fun dt _ _ => gateSound_elapse dt) gateSound_image run

end Sys2Proof.Proofs
end

section
/-! SUPPORT. Plan, queue, interpreter and storm save stay in agreement (O58). -/

namespace Sys2Proof.Proofs

open Sys2Proof.Machine Sys2Proof.Safety

/-! ### The interpreter -/

/-- The stacks, the queue and the spin count of a plan stay in their depths (R125, R126, R128, R131). -/
def DepthsKept (p : Plan) : Prop := InterpInRange p.interp p.queue

theorem interpInRange_cleared (codePtr : Nat) : InterpInRange { Interp.cleared with codePtr := codePtr } [] := by
  simp [InterpInRange, Interp.cleared]

theorem executeOp_depths {op : PlanOp} {i j : Interp} (h : executeOp op i = some j) (loops : i.loops.length ≤ Config.stackDepth)
    (calls : i.calls.length ≤ Config.stackDepth) :
    j.loops.length ≤ Config.stackDepth ∧ j.calls.length ≤ Config.stackDepth ∧ j.spin = i.spin := by
  cases op with
  | steps first last count =>
    obtain rfl := Option.some.inj h
    exact ⟨loops, calls, rfl⟩
  | repeatLoop n =>
    simp only [executeOp] at h
    split at h
    · next room => obtain rfl := Option.some.inj h; exact ⟨room, calls, rfl⟩
    · cases h
  | forever =>
    simp only [executeOp] at h
    split at h
    · next room => obtain rfl := Option.some.inj h; exact ⟨room, calls, rfl⟩
    · cases h
  | nextLoop =>
    simp only [executeOp] at h
    split at h
    · cases h
    · next f rest stack =>
      rw [stack, List.length_cons] at loops
      split at h
      · obtain rfl := Option.some.inj h
        exact ⟨by rw [stack]; exact loops, calls, rfl⟩
      · split at h
        · obtain rfl := Option.some.inj h
          exact ⟨loops, calls, rfl⟩
        · obtain rfl := Option.some.inj h
          exact ⟨Nat.le_of_succ_le loops, calls, rfl⟩
  | call address =>
    simp only [executeOp] at h
    split at h
    · next room => obtain rfl := Option.some.inj h; exact ⟨loops, room, rfl⟩
    · cases h
  | back =>
    simp only [executeOp] at h
    split at h
    · cases h
    · next a rest stack =>
      rw [stack, List.length_cons] at calls
      obtain rfl := Option.some.inj h
      exact ⟨loops, Nat.le_of_succ_le calls, rfl⟩
  | finish =>
    obtain rfl := Option.some.inj h
    exact ⟨loops, calls, rfl⟩

/-- One action of a refill, made with room in the queue, stays in the depths. -/
theorem refillAction_depths {img : Image} {p q : Plan} (h : refillAction img p = some q) (room : p.queue.length < Config.queueDepth)
    (depths : DepthsKept p) : DepthsKept q := by
  obtain ⟨loops, calls, -, -⟩ := depths
  unfold refillAction at h
  split at h
  · split at h
    · obtain rfl := Option.some.inj h
      exact ⟨loops, calls, Nat.zero_le _, by simpa using room⟩
    · cases h
  · split at h
    · next spins =>
      split at h
      · cases h
      · obtain ⟨i, executed, rfl⟩ := Option.map_eq_some_iff.mp h
        obtain ⟨loops', calls', spin⟩ := executeOp_depths executed loops calls
        exact ⟨loops', calls', by rw [spin]; exact spins, room.le⟩
    · cases h

theorem refillLoop_depths {img : Image} (n : Nat) {p q : Plan} (h : refillLoop img n p = some q) (depths : DepthsKept p) : DepthsKept q := by
  induction n generalizing p with
  | zero => exact Option.some.inj h ▸ depths
  | succ n ih =>
    unfold refillLoop at h
    split at h
    · exact Option.some.inj h ▸ depths
    · next goesOn =>
      split at h
      · cases h
      · next r acts => exact ih h (refillAction_depths acts (Nat.lt_of_not_le fun full => goesOn (.inl full)) depths)

/-! ### The plan by itself -/

/-- The soundness of a plan that does not speak of mode and save (R129, R139 to R142). -/
def PlanShape (p : Plan) : Prop :=
  (p.resume.isSome ↔ p.state = .held) ∧ (¬ PlanLive p.state → PlanEmpty p.interp p.queue p.current ∧ p.finishAtHold = false) ∧
    (p.number = none ↔ p.state = .idle) ∧ DepthsKept p

theorem planSound_iff {s : State} :
    PlanSound s ↔
      (s.plan.state = .running → s.modeCtl.mode = .auto) ∧ PlanShape s.plan ∧ (∀ c ∈ s.modeCtl.save, SaveAgrees s.plan c) ∧
        (s.modeCtl.mode = .auto → s.order.deferred = false) := by
  constructor
  · rintro ⟨auto, resume, empty, number, depths, save, deferred⟩
    exact ⟨auto, ⟨resume, empty, number, depths⟩, save, deferred⟩
  · rintro ⟨auto, ⟨resume, empty, number, depths⟩, save, deferred⟩
    exact ⟨auto, resume, empty, number, depths, save, deferred⟩

/-- A RUNNING plan of sound shape: no resume point, a number, and its depths. -/
theorem planShape_of_running {p : Plan} (running : p.state = .running) (resume : p.resume = none) (number : p.number ≠ none)
    (depths : DepthsKept p) : PlanShape p :=
  ⟨by simp [resume, running], fun dead => absurd (.inl running) dead, by simp [number, running], depths⟩

theorem PlanShape.ofRunning {p : Plan} (h : PlanShape p) (running : p.state = .running) :
    p.resume = none ∧ p.number ≠ none ∧ DepthsKept p := by
  obtain ⟨resume, -, number, depths⟩ := h
  refine ⟨?_, by rw [Ne, number, running]; simp, depths⟩
  rw [← Option.not_isSome_iff_eq_none, resume, running]
  simp

theorem planShape_planFailed {p : Plan} (number : p.number ≠ none) : PlanShape (planFailed p) := by
  refine ⟨by simp, fun _ => ⟨⟨rfl, rfl, rfl⟩, rfl⟩, by simp [number], ?_⟩
  exact interpInRange_cleared 0

theorem planShape_endPlan {s : State} {new : PlanState} (ends : new = .idle ∨ new = .ended ∧ s.plan.number ≠ none) :
    PlanShape (endPlan new s).plan := by
  refine ⟨?_, fun _ => ⟨⟨rfl, rfl, rfl⟩, rfl⟩, ?_, interpInRange_cleared 0⟩
  · rcases ends with rfl | ⟨rfl, -⟩ <;> simp [endPlan]
  · rcases ends with rfl | ⟨rfl, number⟩
    · simp [endPlan]
    · simp [endPlan, number]

theorem failPlan_plan (s : State) : (failPlan s).plan = planFailed s.plan := (failPlan_cases s).1

/-- A refill keeps the shape of a plan (R127, R129). -/
theorem planShape_refill {s : State} (h : PlanShape s.plan) : PlanShape (refill s).plan := by
  unfold refill
  split
  · exact h
  · split
    · next running =>
      obtain ⟨resume, number, depths⟩ := h.ofRunning running
      split
      · next p filled =>
        have frame := refillLoop_frame _ filled
        refine planShape_of_running ?_ ?_ ?_ (refillLoop_depths _ filled depths)
        · rw [frame]; exact running
        · rw [frame]; exact resume
        · rw [frame]; exact number
      · rw [failPlan_plan]; exact planShape_planFailed number
    · exact h

theorem planShape_takeStep {s : State} (h : PlanShape s.plan) : PlanShape (takeStep s).plan := by
  unfold takeStep
  split
  · exact h
  · split
    · next takes =>
      obtain ⟨resume, number, loops, calls, spin, queue⟩ := h.ofRunning takes.1
      split
      · next i rest head =>
        rw [head, List.length_cons] at queue
        exact planShape_refill (s := beginStep _ i rest s)
          (planShape_of_running takes.1 resume number ⟨loops, calls, spin, Nat.le_of_succ_le queue⟩)
      · split
        · exact planShape_endPlan (.inr ⟨rfl, number⟩)
        · exact h
    · exact h

theorem planShape_startPlan {s : State} (n : Nat) (h : PlanShape s.plan) : PlanShape (startPlan n s).plan := by
  unfold startPlan
  split
  · exact h
  · dsimp only
    split
    · rw [failPlan_plan]
      exact planShape_planFailed (by simp)
    · exact planShape_takeStep (planShape_refill (planShape_of_running rfl rfl (by simp) (interpInRange_cleared _)))

theorem planShape_abandonPlan {s : State} (h : PlanShape s.plan) : PlanShape (abandonPlan s).plan := by
  unfold abandonPlan
  split
  · exact planShape_endPlan (.inl rfl)
  · exact h

theorem planShape_takePlanAction {s : State} (h : PlanShape s.plan) : PlanShape (takePlanAction s).plan := by
  unfold takePlanAction
  split
  · exact planShape_abandonPlan h
  · exact planShape_startPlan _ h
  · exact h

theorem planShape_resumePlan {s : State} (held : s.plan.state = .held) (h : PlanShape s.plan) : PlanShape (resumePlan s).plan := by
  obtain ⟨-, -, number, depths⟩ := h
  have named : s.plan.number ≠ none := by rw [Ne, number, held]; simp
  unfold resumePlan
  split
  · exact planShape_refill (planShape_of_running rfl rfl named depths)
  · exact planShape_takeStep (planShape_refill (planShape_of_running rfl rfl named depths))

/-- The phase, the dwell counter and the current step of a RUNNING plan are not part of its shape. -/
theorem planShape_stepped {p : Plan} (running : p.state = .running) (phase : Phase) (dwell : Nat) (current : Option Nat) (judged : Bool)
    (h : PlanShape p) : PlanShape { p with phase := phase, dwell := dwell, current := current, aimJudged := judged } := by
  obtain ⟨resume, number, depths⟩ := h.ofRunning running
  exact planShape_of_running running resume number depths

theorem planShape_stepDone {s : State} (img : Image) (running : s.plan.state = .running) (h : PlanShape s.plan) :
    PlanShape (stepDone img s).plan := by
  obtain ⟨-, number, depths⟩ := h.ofRunning running
  unfold stepDone
  split
  · exact h
  · split
    · exact planShape_endPlan (.inr ⟨rfl, number⟩)
    · split
      · refine ⟨by simp, fun dead => absurd (.inr rfl) dead, by simp [number], depths⟩
      · exact planShape_takeStep (planShape_stepped running .done s.plan.dwell none s.plan.aimJudged h)

theorem planShape_tidePhase {s : State} (img : Image) (running : s.plan.state = .running) (h : PlanShape s.plan) :
    PlanShape (tidePhase img s).plan := by
  unfold tidePhase
  split
  · exact h
  · split
    · split
      · exact planShape_stepDone (s := s.withTide _) img running h
      · exact h
    · exact planShape_stepDone img running h

theorem planShape_evalPlan {s : State} (img : Image) (h : PlanShape s.plan) : PlanShape (evalPlan img s).plan := by
  unfold evalPlan
  split
  · next runs =>
    have running := runs.1
    have phased (phase : Phase) (dwell : Nat) := planShape_stepped running phase dwell s.plan.current s.plan.aimJudged h
    split
    · split
      · unfold enterDwell
        split
        · exact planShape_tidePhase img running (phased .tide s.plan.dwell)
        · exact phased .dwell s.plan.dwell
      · exact h
    · dsimp only
      split
      · exact planShape_tidePhase img running (phased .tide _)
      · exact planShape_stepped running s.plan.phase _ s.plan.current s.plan.aimJudged h
    · exact planShape_tidePhase img running h
    · exact h
  · exact h

/-- A hold leaves no plan RUNNING (R142). -/
theorem holdPlan_not_running (s : State) : (holdPlan s).plan.state ≠ .running := by
  unfold holdPlan
  split
  · simp
  · next idle => exact idle

theorem planShape_holdPlan {s : State} (h : PlanShape s.plan) : PlanShape (holdPlan s).plan := by
  obtain ⟨-, -, number, depths⟩ := id h
  unfold holdPlan
  split
  · next running =>
    have named : s.plan.number ≠ none := by rw [Ne, number, running]; simp
    refine ⟨?_, fun dead => absurd (.inr rfl) dead, by simp [named], depths⟩
    simp only [State.withPlan_plan, iff_true]
    split <;> rfl
  · exact h

/-! ### The restore of a save -/

/-- A save that agrees with a plan of sound shape gives it back in sound shape (R145, R157). -/
theorem planShape_adjustRestored {s : State} {c : StormSave} (m : Mode) (h : PlanShape s.plan) (agrees : SaveAgrees s.plan c) :
    PlanShape (adjustRestored m (saveRestored c s)).plan := by
  obtain ⟨resume, empty, -, -⟩ := h
  obtain ⟨live, dead, number, depths⟩ := agrees
  have restored : (saveRestored c s).plan.state = c.state := rfl
  unfold adjustRestored
  split
  · next running =>
    rw [restored] at running
    have named : c.number ≠ none := by rw [Ne, number, running]; simp
    split
    · exact planShape_takeStep (planShape_refill (planShape_of_running running rfl named depths))
    · have holds : holdPlan (saveRestored c s) = _ := if_pos running
      rw [holds]
      refine ⟨?_, fun gone => absurd (.inr rfl) gone, by simp [saveRestored, named], depths⟩
      simp only [State.withPlan_plan, iff_true]
      split <;> rfl
  · next held =>
    rw [restored] at held
    have named : c.number ≠ none := by rw [Ne, number, held]; simp
    refine ⟨?_, fun gone => absurd (.inr held) gone, by simp [saveRestored, named, held], depths⟩
    simp only [State.withPlan_plan, saveRestored, held, iff_true]
    split <;> rfl
  · next notRunning notHeld =>
    rw [restored] at notRunning notHeld
    have gone : ¬ PlanLive c.state := fun alive => alive.elim notRunning notHeld
    obtain ⟨same, cleared⟩ := dead gone
    rw [same] at resume empty
    exact ⟨resume, fun _ => ⟨cleared, (empty gone).2⟩, number, depths⟩

theorem adjustRestored_not_running {s : State} {m : Mode} (other : m ≠ .auto) : (adjustRestored m s).plan.state ≠ .running := by
  unfold adjustRestored
  split
  · rw [if_neg other]; exact holdPlan_not_running s
  · next held => simp [held]
  · next notRunning _ => exact notRunning

end Sys2Proof.Proofs
end

section
namespace Sys2Proof.Proofs

open Sys2Proof.Machine Sys2Proof.Safety

/-! ### The plan in the station -/

/-- Outside STORM and FAULT no save is held (R155, R158). -/
def SaveInPlace (s : State) : Prop := s.modeCtl.save.isSome → s.modeCtl.mode = .storm ∨ s.modeCtl.mode = .fault

theorem ModesServe.saveInPlace {s : State} (h : ModesServe s) : SaveInPlace s := by
  obtain ⟨-, -, -, -, -, -, save⟩ := h
  exact save

/-- What the soundness of the plan reads of the state. -/
theorem planSound_congr {s t : State} (h : PlanSound s) (plan : t.plan = s.plan) (mode : t.modeCtl.mode = s.modeCtl.mode)
    (save : t.modeCtl.save = s.modeCtl.save) (deferred : t.order.deferred = s.order.deferred) : PlanSound t := by
  unfold PlanSound
  rw [plan, mode, save, deferred]
  exact h

theorem planSound_setsMove {s t : State} (h : PlanSound s) (plan : t.plan = s.plan) (moves : SetsMove s.modeCtl t.modeCtl)
    (deferred : t.order.deferred = s.order.deferred) : PlanSound t :=
  planSound_congr h plan moves.mode (by rw [moves.1]) deferred

/-- An operation on the plan in AUTO, where no save is held. -/
theorem planSound_inAuto {s t : State} (h : PlanSound s) (place : SaveInPlace s) (auto : s.modeCtl.mode = .auto) (shape : PlanShape t.plan)
    (moves : SetsMove s.modeCtl t.modeCtl) (deferred : t.order.deferred = s.order.deferred) : PlanSound t := by
  have noSave : s.modeCtl.save = none := by
    rw [← Option.not_isSome_iff_eq_none]
    intro held
    rcases place held with m | m <;> simp [auto] at m
  have save : t.modeCtl.save = none := by rw [moves.1]; exact noSave
  obtain ⟨-, -, -, order⟩ := planSound_iff.mp h
  rw [planSound_iff, save, moves.mode, deferred]
  exact ⟨fun _ => auto, shape, by simp, order⟩

/-! ### Transitions -/

/-- The plan of `s` after AUTO has been left, or as it was (R142). -/
theorem heldPlan_shape {s t : State} (h : PlanSound s) (plan : t.plan = s.plan) :
    PlanShape (if s.modeCtl.mode = .auto then holdPlan t else t).plan ∧
      (if s.modeCtl.mode = .auto then holdPlan t else t).plan.state ≠ .running := by
  obtain ⟨auto, shape, -, -⟩ := planSound_iff.mp h
  split
  · exact ⟨planShape_holdPlan (by rwa [plan]), holdPlan_not_running t⟩
  · next other =>
    rw [plan]
    exact ⟨shape, fun running => other (auto running)⟩

/-- The save taken at an entry into STORM agrees with the plan that the same transition holds (R142, R155). -/
theorem saveAgrees_taken {s t : State} (h : PlanSound s) (plan : t.plan = s.plan) :
    SaveAgrees (if s.modeCtl.mode = .auto then holdPlan t else t).plan (planContext s) := by
  obtain ⟨auto, ⟨-, empty, number, depths⟩, -, -⟩ := planSound_iff.mp h
  have state : (if s.modeCtl.mode = .auto then holdPlan t else t).plan.state =
      if s.plan.state = .running then .held else s.plan.state := by
    by_cases running : s.plan.state = .running
    · rw [if_pos (auto running), if_pos running]
      unfold holdPlan
      rw [plan, if_pos running]
      rfl
    · rw [if_neg running]
      split
      · unfold holdPlan
        rw [plan, if_neg running, plan]
      · rw [plan]
  refine ⟨fun live => ?_, fun dead => ⟨?_, (empty dead).1⟩, number, depths⟩
  · rw [state]
    split
    · rfl
    · next idle => exact live.resolve_left idle
  · rw [state]
    exact if_neg fun running => dead (.inl running)

/-- Every transition out of START leaves the plan sound (R142, R145, R155, R157, R158). -/
theorem planSound_enterMode {new : Mode} {s : State} (h : PlanSound s) (place : SaveInPlace s) (started : new ≠ .start) :
    PlanSound (enterMode new s) := by
  have modes := enterMode_faults new s
  have mode := modes.mode
  have save : (enterMode new s).modeCtl.save = saveAfter new s := by rw [modes.1]; rfl
  have claimed : (claimAtTransition new (setMode new (takeStormSave new s))).plan = s.plan := by simp
  obtain ⟨shape, notRunning⟩ := heldPlan_shape h claimed
  have taken := saveAgrees_taken h claimed
  have saved : (if s.modeCtl.mode = .auto then holdPlan (claimAtTransition new (setMode new (takeStormSave new s)))
      else claimAtTransition new (setMode new (takeStormSave new s))).modeCtl.save = (takeStormSave new s).modeCtl.save := by
    have claim := claimAtTransition_faults new (setMode new (takeStormSave new s))
    split
    · rw [holdPlan_modeCtl, claim.1]; rfl
    · rw [claim.1]; rfl
  obtain ⟨-, -, agrees, -⟩ := planSound_iff.mp h
  rw [planSound_iff, mode, save]
  change (_ → new = .auto) ∧ _ ∧ _ ∧ (new = .auto → _)
  have kept (c : StormSave) (held : s.modeCtl.save = some c) :
      SaveAgrees (if s.modeCtl.mode = .auto then holdPlan (claimAtTransition new (setMode new (takeStormSave new s)))
        else claimAtTransition new (setMode new (takeStormSave new s))).plan c := by
    have other : s.modeCtl.mode ≠ .auto := fun auto => by
      rcases place (by simp [held]) with m | m <;> simp [auto] at m
    rw [if_neg other, claimed]
    exact agrees c held
  unfold enterMode
  dsimp only
  generalize (if s.modeCtl.mode = .auto then holdPlan (claimAtTransition new (setMode new (takeStormSave new s)))
       else claimAtTransition new (setMode new (takeStormSave new s))) = t at shape notRunning taken saved kept
  by_cases serves : new = .auto ∨ new = .loc ∨ new = .maint
  · have noSave : saveAfter new s = none := if_pos serves
    have restored : restoreInto new t = restoreSave new t := if_pos serves
    rw [noSave, restored]
    have notStorm : new ≠ .storm := by rintro rfl; simp at serves
    have savedHere : t.modeCtl.save = s.modeCtl.save := by
      rw [saved]
      unfold takeStormSave
      rw [if_neg fun enters => notStorm enters.1]
    have shapeAfter : PlanShape (restoreSave new t).plan ∧ (new ≠ .auto → (restoreSave new t).plan.state ≠ .running) := by
      cases held : t.modeCtl.save with
      | none =>
        have same : restoreSave new t = t := by simp [restoreSave, held]
        rw [same]
        exact ⟨shape, fun _ => notRunning⟩
      | some c =>
        rw [restoreSave_of_save new held]
        exact ⟨planShape_adjustRestored new shape (kept c (savedHere ▸ held)), adjustRestored_not_running⟩
    by_cases auto : new = .auto
    · rw [if_pos auto]
      refine ⟨fun _ => auto, ?_, by simp, fun _ => ?_⟩
      · have halted : PlanShape (if haltInForce (restoreSave new t) then haltStop (restoreSave new t) else restoreSave new t).plan := by
          split <;> simpa using shapeAfter.1
        unfold enterAuto
        dsimp only
        generalize (if haltInForce (restoreSave new t) then haltStop (restoreSave new t) else restoreSave new t) = u at halted
        split
        · exact planShape_takePlanAction (s := u.withOrder { u.order with deferred := false }) halted
        · exact halted
      · unfold enterAuto
        dsimp only
        generalize (if haltInForce (restoreSave new t) then haltStop (restoreSave new t) else restoreSave new t) = u
        split
        · simp
        · next none => exact Bool.eq_false_of_not_eq_true none
    · rw [if_neg auto]
      exact ⟨fun running => absurd running (shapeAfter.2 auto), shapeAfter.1, by simp, fun m => absurd m auto⟩
  · have notAuto : new ≠ .auto := fun auto => serves (.inl auto)
    have untouched : restoreInto new t = t := if_neg serves
    rw [if_neg notAuto, untouched]
    refine ⟨fun running => absurd running notRunning, shape, ?_, fun auto => absurd auto notAuto⟩
    unfold saveAfter
    rw [if_neg serves]
    split
    · intro c held
      obtain rfl := Option.some.inj held
      exact taken
    · exact fun c held => kept c held

/-! ### The shared operations -/

/-- Plan and modes of a station whose image has been read are sound. -/
def PlanServes (s : State) : Prop := ModesServe s ∧ PlanSound s

theorem PlanServes.enterMode {new : Mode} {s : State} (h : PlanSound s) (place : SaveInPlace s) (started : new ≠ .start)
    (modes : ModesServe (enterMode new s)) : PlanServes (enterMode new s) := ⟨modes, planSound_enterMode h place started⟩

theorem planSound_raise {s : State} (ks : List FaultKind) (h : PlanSound s) (place : SaveInPlace s) : PlanSound (raise ks s) := by
  unfold raise
  split
  · exact planSound_enterMode (s := latchKinds ks s) h place (by simp)
  · exact h

theorem planSound_setConditions {s : State} (order input level : Bool) (h : PlanSound s) (place : SaveInPlace s) :
    PlanSound (setConditions order input level s) := by
  rw [setConditions_eq]
  unfold serveStorm
  split
  · exact planSound_enterMode (s := conditionsSet order input level s) h place (by simp)
  · exact h

theorem planSound_toKeys {s : State} (h : PlanSound s) (place : SaveInPlace s) : PlanSound (enterMode (keyMode s) s) :=
  planSound_enterMode h place (by rcases keyMode_mem s with k | k | k <;> simp [k])

theorem planSound_sampleKeys {s : State} (maintKey localKey stormInput : Bool) (h : PlanSound s) (modes : ModesServe s) :
    PlanSound (sampleKeys maintKey localKey stormInput s) := by
  have judged := planSound_setConditions s.modeCtl.condOrder stormInput s.modeCtl.condLevel
    (s := s.withModeCtl { s.modeCtl with maintKey := maintKey, localKey := localKey, stormInput := stormInput }) h modes.saveInPlace
  have place := (ModesServe.setConditions s.modeCtl.condOrder stormInput s.modeCtl.condLevel
    (s := s.withModeCtl { s.modeCtl with maintKey := maintKey, localKey := localKey, stormInput := stormInput }) modes).saveInPlace
  have keys := planSound_toKeys judged place
  unfold sampleKeys
  dsimp only
  split
  · split
    · exact judged
    · split <;> assumption
  · split
    · exact judged
    · split <;> assumption
  · split
    · exact judged
    · split
      · exact planSound_enterMode judged place (by simp)
      · exact keys
  · exact judged

theorem elapse_deferred (dt : Nat) (s : State) : (elapse dt s).order.deferred = s.order.deferred := by
  unfold elapse; split <;> rfl

theorem planSound_elapse {s : State} (dt : Nat) (h : PlanSound s) : PlanSound (elapse dt s) :=
  planSound_congr h (by simp) (by rw [elapse_modeCtl]) (by rw [elapse_modeCtl]) (elapse_deferred dt s)

theorem saveInPlace_elapse {s : State} (dt : Nat) (h : SaveInPlace s) : SaveInPlace (elapse dt s) := by
  unfold SaveInPlace
  rw [elapse_modeCtl]
  exact h

theorem planSound_endStorm {s : State} (img : Image) (h : PlanSound s) (place : SaveInPlace s) : PlanSound (endStorm img s) := by
  unfold endStorm
  split
  · exact planSound_toKeys (planSound_elapse _ h) (saveInPlace_elapse _ place)
  · exact h

theorem planSound_takeStep {s : State} (h : PlanSound s) (place : SaveInPlace s) : PlanSound (takeStep s) := by
  obtain ⟨auto, shape, -, -⟩ := planSound_iff.mp h
  by_cases running : s.plan.state = .running
  · exact planSound_inAuto h place (auto running) (planShape_takeStep shape) (takeStep_faults s) (by simp)
  · rw [takeStep_none (.inl running)]; exact h

theorem planSound_evalPlan {s : State} (img : Image) (h : PlanSound s) (place : SaveInPlace s) : PlanSound (evalPlan img s) := by
  obtain ⟨auto, shape, -, -⟩ := planSound_iff.mp h
  by_cases running : s.plan.state = .running
  · exact planSound_inAuto h place (auto running) (planShape_evalPlan img shape) (evalPlan_faults img s) (by simp)
  · have idles : evalPlan img s = s := if_neg fun runs => running runs.1
    rw [idles]; exact h

/-- The saved plan that an ABANDON in FAULT takes with the live one (R158). -/
theorem saveAgrees_abandoned (p : Plan) (c : StormSave) (idle : p.state = .idle) : SaveAgrees p (abandonSaved c) := by
  refine ⟨fun live => by simp [PlanLive, abandonSaved] at live, fun _ => ⟨idle, rfl, rfl, rfl⟩, by simp [abandonSaved], ?_⟩
  exact interpInRange_cleared 0

theorem planSound_abandon {s : State} (h : PlanSound s) (place : SaveInPlace s) : PlanSound (doAbandon s).1 := by
  obtain ⟨-, shape, agrees, order⟩ := planSound_iff.mp h
  have cleared : PlanSound (clearDeferred s) := by
    rw [planSound_iff]
    exact ⟨(planSound_iff.mp h).1, shape, agrees, fun _ => rfl⟩
  unfold doAbandon
  split
  · exact h
  · next notStorm =>
    split
    · next live =>
      have ends : abandonPlan s = endPlan .idle s := if_pos live
      have idle : (endPlan .idle s).plan.state = .idle := rfl
      have plan : (clearDeferred (abandonSave (abandonPlan s))).plan = (endPlan .idle s).plan := by simp [ends]
      rw [planSound_iff, plan]
      refine ⟨fun running => (by rw [idle] at running; cases running), planShape_endPlan (.inl rfl), ?_, fun _ => rfl⟩
      intro c held
      unfold abandonSave at held
      rw [clearDeferred_modeCtl] at held
      split at held
      · rw [State.withModeCtl_modeCtl, Option.mem_def, Option.map_eq_some_iff] at held
        obtain ⟨c', -, rfl⟩ := held
        exact saveAgrees_abandoned _ c' idle
      · next notFault =>
        rw [abandonPlan_modeCtl] at held notFault
        exact ((place (by rw [Option.mem_def.mp held]; rfl)).elim notStorm notFault).elim
    · split
      · exact cleared
      · exact h

theorem planSound_clearFault {s : State} (h : PlanSound s) (place : SaveInPlace s) : PlanSound (doClearFault s).1 := by
  unfold doClearFault
  split
  · exact h
  · unfold leaveFault
    split
    · refine planSound_enterMode (s := unlatch _ s) h place ?_
      split
      · simp
      · rcases keyMode_mem (unlatch (s.modeCtl.latched &&& s.modeCtl.active) s) with k | k | k <;> simp [k]
    · exact h

theorem ClaimMoves.samePlan {img : Image} {s t : State} (h : ClaimMoves img s t) : t.plan = s.plan ∧ t.order = s.order := by
  cases h <;> simp

/-- Every shared operation keeps the plan sound, with the modes. -/
theorem planServes_kept : KeptInService PlanServes where
  frame same h := ⟨modesServe_kept.frame same h.1, planSound_congr h.2 same.2.2.2.1 (by rw [same.2.2.2.2.1]) (by rw [same.2.2.2.2.1]) same.2.2.2.2.2⟩
  clearLevel c h := ⟨modesServe_kept.clearLevel c h.1, h.2⟩
  raiseLevel ks level h := ⟨modesServe_kept.raiseLevel ks level h.1, planSound_raise ks h.2 h.1.saveInPlace⟩
  setConditions _ _ _ h := ⟨h.1.setConditions _ _ _, planSound_setConditions _ _ _ h.2 h.1.saveInPlace⟩
  elapse dt h := ⟨h.1.elapse dt, planSound_elapse dt h.2⟩
  raise ks planBad h := ⟨h.1.raise planBad, planSound_raise ks h.2 h.1.saveInPlace⟩
  clear ks config h := ⟨modesServe_kept.clear ks config h.1, h.2⟩
  sampleKeys _ _ _ h := ⟨h.1.sampleKeys _ _ _, planSound_sampleKeys _ _ _ h.2 h.1⟩
  endStorm img h := ⟨h.1.endStorm img, planSound_endStorm img h.2 h.1.saveInPlace⟩
  standStill h := ⟨modesServe_kept.standStill h.1, planSound_setsMove h.2 (by simp) (standStill_faults _) (by simp)⟩
  haltStop h := ⟨modesServe_kept.haltStop h.1, planSound_setsMove h.2 (by simp) (haltStop_faults _) (by simp)⟩
  claim img moves h := ⟨modesServe_kept.claim img moves h.1,
    planSound_congr h.2 moves.samePlan.1 (by rw [moves.sameModes.2]) (by rw [moves.sameModes.2]) (by rw [moves.samePlan.2])⟩
  drive img rl rr h := ⟨modesServe_kept.drive img rl rr h.1,
    planSound_congr h.2 (by simp [driven]) (by simp [driven]) (by simp [driven]) (by simp [driven])⟩
  takeStep h := ⟨modesServe_kept.takeStep h.1, planSound_takeStep h.2 h.1.saveInPlace⟩
  planAction auto h := ⟨modesServe_kept.planAction auto h.1,
    planSound_inAuto h.2 h.1.saveInPlace auto (planShape_takePlanAction (planSound_iff.mp h.2).2.1) (takePlanAction_faults _) (by simp)⟩
  defer other h := by
    obtain ⟨auto, shape, agrees, -⟩ := planSound_iff.mp h.2
    exact ⟨h.1, planSound_iff.mpr ⟨auto, shape, agrees, fun m => absurd m other⟩⟩
  evalPlan img h := ⟨modesServe_kept.evalPlan img h.1, planSound_evalPlan img h.2 h.1.saveInPlace⟩
  planCounts _ _ h := ⟨h.1, h.2⟩
  resume held auto h := ⟨modesServe_kept.resume held auto h.1,
    planSound_inAuto h.2 h.1.saveInPlace auto (planShape_resumePlan held (planSound_iff.mp h.2).2.1) (resumePlan_faults _) (by simp)⟩
  finishAtHold running h := by
    obtain ⟨auto, shape, -, -⟩ := planSound_iff.mp h.2
    obtain ⟨resume, number, depths⟩ := shape.ofRunning running
    exact ⟨h.1, planSound_inAuto h.2 h.1.saveInPlace (auto running) (planShape_of_running running resume number depths) (.refl _) rfl⟩
  abandon h := ⟨h.1.abandon, planSound_abandon h.2 h.1.saveInPlace⟩

/-! ### The start, and the step -/

/-- Between acceptance and the first mode no save is held, and the plan is sound. -/
def PlanStart (s : State) : Prop := ModesStart s ∧ PlanSound s ∧ s.modeCtl.save = none

theorem PlanStart.saveInPlace {s : State} (h : PlanStart s) : SaveInPlace s := by simp [SaveInPlace, h.2.2]

theorem planStart_kept : KeptBySample PlanStart where
  frame same h := ⟨modesStart_kept.frame same h.1,
    planSound_congr h.2.1 same.2.2.2.1 (by rw [same.2.2.2.2.1]) (by rw [same.2.2.2.2.1]) same.2.2.2.2.2, by rw [same.2.2.2.2.1]; exact h.2.2⟩
  clearLevel c h := ⟨modesStart_kept.clearLevel c h.1, h.2⟩
  raiseLevel {s} ks level h := by
    have stays : raise ks s = latchKinds ks s := by simp [raise, canFault, relayIn, h.1.2.1]
    exact ⟨modesStart_kept.raiseLevel ks level h.1, by rw [stays]; exact h.2⟩
  setConditions order input level h := ⟨modesStart_kept.setConditions order input level h.1, by
    rw [setConditions_of_start _ _ _ h.1.2.1]
    exact h.2⟩

theorem planSound_acceptImage {img : Image} {inputs : TickInputs} {up dn : Half} {s : State} (keys : PlanStart
    (sampleKeys inputs.maintKey inputs.localKey inputs.stormInput (holdImage img s))) : PlanSound (acceptImage img inputs up dn s) :=
  (acceptImage_keeps planStart_kept planServes_kept keys fun _ h =>
    PlanServes.enterMode h.2.1 h.saveInPlace firstMode_ne.1 h.1.enterFirstMode).2

theorem planSound_image {i : Instr} {s : State} (image : IsImageEvent i) (unread : s.loader.image = .unread) (modes : ModeSound s)
    (h : PlanSound s) : PlanSound (effect i s) := by
  obtain ⟨start, faults, -, -, -, save⟩ := modes
  have mode := start.1.mpr unread
  have noSave : s.modeCtl.save = none := by
    rw [← Option.not_isSome_iff_eq_none]
    intro held
    rcases save held with m | m <;> simp [mode] at m
  have place {t : State} (same : t.modeCtl.save = s.modeCtl.save) : SaveInPlace t := by simp [SaveInPlace, same, noSave]
  have rejects {t : State} (sound : PlanSound t) (same : t.modeCtl.save = s.modeCtl.save) : PlanSound (rejectImage t) :=
    planSound_enterMode (s := latchKinds _ _) sound (place same) (by simp)
  cases image with
  | resetEnd straps =>
    simp only [effect, endReset]
    split
    · exact planSound_initial s.loader.cause false straps.toNat
    · exact h
  | failed =>
    simp only [effect, failAttempt_eq]
    split
    · split
      · exact h
      · exact rejects (t := attempted s) h rfl
    · exact h
  | retry =>
    simp only [effect, beginRetry]
    split
    · exact h
    · exact planSound_elapse _ h
  | complete bytes inputs up dn =>
    simp only [effect]
    rcases completeRead_cases bytes inputs up dn s with stays | ⟨reading, rejected | ⟨img, accepted⟩⟩
    · rw [stays]; exact h
    · rw [rejected]; exact rejects (t := hearLine inputs.line (attempted s)) h rfl
    · obtain ⟨-, -, notReset, notWaiting⟩ := startSound_reading start reading
      rw [accepted]
      refine planSound_acceptImage ?_
      rw [sampleKeys_of_start _ _ _ (by exact mode)]
      refine ⟨⟨⟨by simp [holdImage, conditionsSet, stormTimerAfter], notReset, rfl, notWaiting,
        by simp [holdImage, conditionsSet, stormTimerAfter]⟩, mode, setsSound_of_faultsSound faults, ?_⟩, h, noSave⟩
      change hasStopClass s.modeCtl.latched = false
      simp [(start.2.1 unread).2, hasStopClass]

theorem planSound_afterReset {t : State} (h : AfterReset t) : PlanSound t := by
  obtain ⟨cause, lasts, straps, queue, rfl⟩ := h
  exact planSound_initial cause lasts straps

/-- Settles O58, by the induction over a step, with the modes sound beside the plan (O57). -/
theorem everyStepKeepsPlanSound : Obligations.EveryStepKeepsPlanSound := fun s t sound modes run =>
  (step_keeps (Q := fun u => PlanSound u ∧ ModeSound u) planServes_kept ⟨sound, modes⟩ modes.1
    (fun read => ⟨modesServe_of_modeSound modes read, sound⟩) (fun h => ⟨h.2, h.1.modeSound⟩)
    (fun h => ⟨h.1.clearFault, planSound_clearFault h.2 h.1.saveInPlace⟩) (fun h => ⟨planSound_afterReset h, modeSound_afterReset h⟩)
    (fun same h => ⟨planSound_congr h.1 same.2.2.2.1 (by rw [same.2.2.2.2.1]) (by rw [same.2.2.2.2.1]) same.2.2.2.2.2,
      modeSound_frame same h.2⟩)
    (fun dt _ _ h => ⟨planSound_elapse dt h.1, modeSound_elapse dt h.2⟩)
    (fun image unread _ h => ⟨planSound_image image unread h.2 h.1, modeSound_image image unread h.2⟩) run).1

/-! ### FAULT (O60) -/

theorem raise_mode_of_fault {s : State} (ks : List FaultKind) (fault : s.modeCtl.mode = .fault) :
    (raise ks s).modeCtl.mode = s.modeCtl.mode := by
  unfold raise
  rw [if_neg (by simp [canFault, relayIn, fault])]
  rfl

/-- In FAULT no transition is made but by a CLEAR_FAULT: neither by a raised kind, nor by storm or keys (R149, R161). -/
theorem fault_kept : KeptInService (fun s => s.modeCtl.mode = .fault) where
  frame same h := by rw [same.2.2.2.2.1]; exact h
  clearLevel _ h := h
  raiseLevel ks _ h := by rw [raise_mode_of_fault ks h]; exact h
  setConditions order input level h := by rw [setConditions_mode, if_neg (by simp [h])]; exact h
  elapse dt h := by rw [elapse_modeCtl]; exact h
  raise ks _ h := by rw [raise_mode_of_fault ks h]; exact h
  clear _ _ h := h
  sampleKeys maintKey localKey stormInput h := by
    unfold sampleKeys
    rw [h]
    dsimp only
    rw [setConditions_mode, if_neg (by simp [h])]
    exact h
  endStorm img h := by simp [endStorm, h]
  standStill h := (standStill_faults _).mode.trans h
  haltStop h := (haltStop_faults _).mode.trans h
  claim _ moves h := by rw [moves.sameModes.2]; exact h
  drive img rl rr h := by rw [(driven_sameModes ..).2]; exact h
  takeStep h := (takeStep_faults _).mode.trans h
  planAction auto h := by simp [h] at auto
  defer _ h := h
  evalPlan img h := (evalPlan_faults img _).mode.trans h
  planCounts _ _ h := h
  resume _ auto h := by simp [h] at auto
  finishAtHold _ h := h
  abandon {s} h := by
    unfold doAbandon
    split
    · exact h
    · split
      · unfold abandonSave
        rw [clearDeferred_modeCtl]
        split <;> simpa using h
      · split <;> exact h

/-- Settles O60: every other event keeps FAULT, by the induction over the events; those of the image find nothing to do. -/
theorem onlyClearOrResetLeavesFault : Obligations.OnlyClearOrResetLeavesFault := by
  intro i s t start fault run left
  by_contra others
  obtain ⟨notClear, others⟩ := not_or.mp others
  obtain ⟨notRestart, notPower⟩ := not_or.mp others
  have read : s.loader.image ≠ .unread := fun unread => by simp [start.1.mpr unread] at fault
  have idle (image : IsImageEvent i) : effect i s = s := by
    obtain ⟨-, -, -, inReset, reading, -, waiting⟩ := start
    refine effect_of_image_read image ?_ ?_ ?_
    · by_contra lasts; exact read (inReset (Bool.eq_true_of_not_eq_false lasts)).1
    · by_contra reads; exact read (reading (Bool.eq_true_of_not_eq_false reads))
    · by_contra waits; exact read (waiting (Option.isSome_iff_ne_none.mpr waits))
  refine left ?_
  rw [exec_eq_next run, concludeEvent_modeCtl]
  refine fault_kept.effect_keeps (Q := fun u => u.modeCtl.mode = .fault) fault idle (fun _ => id) (fun clear => absurd clear notClear) fun reset => ?_
  cases reset with
  | powerOn supply => exact absurd ⟨supply, rfl⟩ notPower
  | restart source target argument tag straps => exact absurd ⟨source, target, argument, tag, straps, rfl⟩ notRestart

end Sys2Proof.Proofs
end

section
/-! SUPPORT. Peer Table, Line Interface and Position Unit stay sound (O59). -/

namespace Sys2Proof.Proofs

open Sys2Proof.Machine Sys2Proof.Safety

/-! ### The line -/

/-- What the soundness of the line asks of a line that works: frames in their slots, idle, run, TX-blocked timer and counter in agreement. -/
def LineShape (l : Line) : Prop :=
  (∀ f, l.sending = some (.state f) → l.stateSlot = some f) ∧
    (∀ r, l.sending = some (.tide r) → l.tideReplaced = false → l.tideSlot = some r) ∧
    (l.sending.isSome → l.idle = false) ∧ (l.idle = true → l.dominantRun = none) ∧ (l.txTimer.isSome ↔ l.stateSlot.isSome) ∧
    l.errors ≤ 255

theorem lineSound_iff {s : State} :
    LineSound s ↔
      LineShape s.line ∧ (lineWorks s = false → s.line.stateSlot = none ∧ s.line.tideSlot = none ∧ s.line.sending = none ∧
        s.line.mark = false ∧ s.line.dominantRun = none ∧ s.line.changes = []) := by
  constructor
  · rintro ⟨state, tide, sends, idle, timer, errors, asleep⟩
    exact ⟨⟨state, tide, sends, idle, timer, errors⟩, asleep⟩
  · rintro ⟨⟨state, tide, sends, idle, timer, errors⟩, asleep⟩
    exact ⟨state, tide, sends, idle, timer, errors, asleep⟩

theorem lineSound_of_works {s : State} (works : lineWorks s = true) : LineSound s ↔ LineShape s.line := by
  simp [lineSound_iff, works]

theorem LineShape.marks {l l' : Line} (h : LineShape l) (marks : MarkOnly l l') : LineShape l' := by
  rcases marks with rfl | rfl <;> exact h

theorem LineShape.hears {l : Line} (dt : Nat) (coming : List LineChange) (h : LineShape l) : LineShape (takeChanges dt coming l) := by
  obtain ⟨state, tide, sends, idle, timer, errors⟩ := h
  have busy := takeChanges_busy dt coming (l := l)
  have recessive := takeChanges_idle_recessive dt coming idle
  rw [takeChanges_eq] at recessive ⊢
  exact ⟨state, tide, fun sending => busy (sends sending), recessive, timer, errors⟩

theorem LineShape.errors {l : Line} (n : Nat) (h : LineShape l) : LineShape { l with errors := countTo 255 n } := by
  obtain ⟨state, tide, sends, idle, timer, -⟩ := h
  exact ⟨state, tide, sends, idle, timer, countTo_le 255 n⟩

/-- A line that a receiver has found busy, or idle, with the run that it leaves (R174). -/
theorem LineShape.received {l : Line} (idle awaitIdle : Bool) (run : Option Nat) (h : LineShape l) (receives : l.sending = none)
    (recessive : idle = true → run = none) : LineShape { l with idle := idle, awaitIdle := awaitIdle, dominantRun := run } := by
  obtain ⟨state, tide, -, -, timer, errors⟩ := h
  exact ⟨state, tide, by simp [receives], recessive, timer, errors⟩

theorem LineShape.busy {l : Line} (h : LineShape l) : LineShape { l with idle := false, awaitIdle := true, dominantRun := none } := by
  obtain ⟨state, tide, -, -, timer, errors⟩ := h
  exact ⟨state, tide, fun _ => rfl, by simp, timer, errors⟩

theorem LineShape.tideEvent {s : State} (k : TideKind) (origin : TideOrigin) (head : Option Int) (h : LineShape s.line) :
    LineShape (makeTideEvent k origin head s).line := by
  obtain ⟨state, tide, sends, idle, timer, errors⟩ := h
  refine ⟨state, fun r sending kept => ?_, sends, idle, timer, errors⟩
  change s.line.sending = some (.tide r) at sending
  simp [makeTideEvent, sendingTide, sending] at kept

/-- A line that offers a frame, with the frame on it. -/
theorem LineShape.sends {s : State} {f : OutFrame} (offers : offeredFrame s = some f) (h : LineShape s.line) :
    LineShape { s.line with sending := some f, tideReplaced := false, idle := false, dominantRun := some 0 } := by
  obtain ⟨-, -, -, -, timer, errors⟩ := h
  refine ⟨fun g sends => ?_, fun r sends _ => ?_, by simp, by simp, timer, errors⟩
  · obtain rfl := Option.some.inj sends
    unfold offeredFrame at offers
    split at offers <;> simp_all
  · obtain rfl := Option.some.inj sends
    unfold offeredFrame at offers
    split at offers <;> simp_all

theorem LineShape.starts {s : State} (h : LineShape s.line) : LineShape (startSending s).line := by
  unfold startSending
  split
  · split
    · next f offers => exact h.sends offers
    · exact h
  · exact h

theorem LineShape.stops {s : State} (driven : Bool) (notIdle : s.line.idle = false) (h : LineShape s.line) :
    LineShape (stopSending driven s).line := by
  obtain ⟨-, -, -, -, timer, errors⟩ := h
  unfold stopSending
  exact ⟨by simp, by simp, by simp, by simp [notIdle], timer, errors⟩

theorem LineShape.completes {s : State} (h : LineShape s.line) : LineShape (completeFrame s).line := by
  obtain ⟨-, -, -, -, timer, errors⟩ := id h
  unfold completeFrame
  split
  · exact h
  · next f _ =>
    cases f with
    | state f => exact ⟨by simp, by simp, by simp, by simp, by simp [stateCompletes], errors⟩
    | tide r => exact ⟨by simp, by simp, by simp, by simp, timer, errors⟩

theorem LineShape.idles {s : State} (h : LineShape s.line) : LineShape (becomeIdle s).line := by
  unfold becomeIdle
  split
  · next free => exact h.received true false none (Option.isNone_iff_eq_none.mp free) fun _ => rfl
  · exact h

theorem LineShape.places {s : State} (free : sendingState s = false) (h : LineShape s.line) : LineShape (placeState s).line := by
  obtain ⟨-, tide, sends, idle, timer, errors⟩ := h
  rw [placeState_line]
  refine ⟨fun f sending => ?_, tide, sends, idle, ?_, errors⟩
  · have sends : sendingState s = true := by
      unfold sendingState
      rw [show s.line.sending = some (.state f) from sending]
    rw [free] at sends
    cases sends
  · dsimp only
    split
    · simp
    · next waits =>
      have slot : s.line.stateSlot.isSome = true := by
        rw [Option.isSome_iff_ne_none]
        exact fun none => waits (Option.isNone_iff_eq_none.mpr none)
      exact iff_of_true (timer.mpr slot) rfl

theorem LineShape.concludes {s t : State} (h : LineShape t.line) : LineShape (concludeEvent s t).line := by
  unfold concludeEvent serveReports
  split
  · next due =>
    refine LineShape.places (s := markChanges s t) ?_ h
    simp only [reportDue, Bool.and_eq_true, Bool.not_eq_true'] at due
    exact due.1.2
  · exact h

theorem elapse_line {dt : Nat} {s : State} (counts : s.loader.inReset = false) :
    (elapse dt s).line =
      { takeChanges dt s.line.changes s.line with
        txTimer := runTimer dt s.line.txTimer
        lineSilent := if isAccepted s then s.line.lineSilent + dt else s.line.lineSilent
        reportTimer := runTimer dt s.line.reportTimer
        gapTimer := s.line.gapTimer + dt } := by
  unfold elapse
  rw [if_neg (by simp [counts])]

theorem LineShape.elapses {s : State} (dt : Nat) (h : LineShape s.line) : LineShape (elapse dt s).line := by
  cases counts : s.loader.inReset with
  | true => rw [elapse_of_reset counts]; exact h
  | false =>
    obtain ⟨-, -, -, -, timer, -⟩ := id h
    obtain ⟨state, tide, sends, idle, -, errors⟩ := h.hears dt s.line.changes
    rw [elapse_line counts]
    refine ⟨state, tide, sends, idle, ?_, errors⟩
    dsimp only
    rw [runTimer_isSome, takeChanges_eq]
    exact timer

theorem lineSound_elapse {s : State} (dt : Nat) (h : LineSound s) : LineSound (elapse dt s) := by
  cases counts : s.loader.inReset with
  | true => rw [elapse_of_reset counts]; exact h
  | false =>
    obtain ⟨shape, asleep⟩ := lineSound_iff.mp h
    refine lineSound_iff.mpr ⟨shape.elapses dt, fun works => ?_⟩
    rw [lineWorks_elapse] at works
    obtain ⟨noState, noTide, noFrame, noMark, noRun, noChange⟩ := asleep works
    rw [elapse_line counts, noChange]
    exact ⟨noState, noTide, noFrame, noMark, by simp [takeChanges, runLevel, noFrame, noRun, runTimer], rfl⟩

/-! ### The Position Unit -/

/-- The soundness of the position, in a travel that ends at `last`. -/
def PositionShape (last : Nat) (p : Position) : Prop :=
  (p.established = true → p.left.lastCount.isSome ∧ p.right.lastCount.isSome) ∧ EncoderSound p.left ∧ EncoderSound p.right ∧
    p.opening ≤ last

theorem positionSound_iff {s : State} : PositionSound s ↔ PositionShape (travelEnd s) s.position := Iff.rfl

theorem travelEnd_congr {s t : State} (image : t.loader.image = s.loader.image) : travelEnd t = travelEnd s := by
  unfold travelEnd acceptedImage
  rw [image]

/-- An encoder side may change within its ranges, as long as a count is not lost. -/
theorem PositionShape.setEncoder {last : Nat} {p : Position} {d : Side} {e : EncoderSide} (h : PositionShape last p) (sound : EncoderSound e)
    (counted : (encoderOf d p).lastCount.isSome → e.lastCount.isSome) : PositionShape last (setEncoder d e p) := by
  obtain ⟨established, left, right, opening⟩ := h
  cases d with
  | left => exact ⟨fun set => ⟨counted (established set).1, (established set).2⟩, sound, right, opening⟩
  | right => exact ⟨fun set => ⟨(established set).1, counted (established set).2⟩, left, sound, opening⟩

theorem PositionShape.encoder {last : Nat} {p : Position} (d : Side) (h : PositionShape last p) : EncoderSound (encoderOf d p) := by
  obtain ⟨-, left, right, -⟩ := h
  cases d
  · exact left
  · exact right

theorem PositionShape.recompute {img : Image} {p : Position} (h : PositionShape img.params.openMax p) :
    PositionShape img.params.openMax (recompute img p) := by
  obtain ⟨established, left, right, -⟩ := h
  refine ⟨fun set => ?_, left, right, ?_⟩
  · rcases Bool.or_eq_true_iff.mp set with before | both
    · exact established before
    · exact Bool.and_eq_true_iff.mp both
  · exact (clampNat_mem (Nat.zero_le _)).2

theorem encoderSound_failedRead {e : EncoderSide} : EncoderSound (failedRead e) := ⟨countTo_le _ _, Nat.zero_le _⟩

theorem encoderSound_goodRead {active : Bool} {raw : Nat} {e : EncoderSide} : EncoderSound (goodRead active raw e) := by
  refine ⟨Nat.zero_le _, ?_⟩
  unfold goodRead
  dsimp only
  split
  · exact countTo_le _ _
  · exact Nat.zero_le _

/-! ### The Peer Table -/

/-- What the soundness of the Peer Table reads of the state. -/
theorem peersSound_congr {s t : State} (h : PeersSound s) (rows : t.peers.rows = s.peers.rows) (strap : t.loader.strap = s.loader.strap)
    (image : t.loader.image = s.loader.image) : PeersSound t := by
  have accepted : isAccepted t = isAccepted s := by simp [isAccepted, acceptedImage, image]
  unfold PeersSound
  rw [contentAt_congr _ rows, strap, rows, accepted]
  exact h

theorem rowSound_ageRow {r : TableRow} (h : RowSound r) : RowSound (ageRow r) := by
  obtain ⟨age, empty, filled⟩ := h
  unfold ageRow
  split
  · next none => exact ⟨age, empty, filled⟩
  · next c content =>
    refine ⟨countTo_le _ _, nofun, fun c' held => ?_⟩
    obtain rfl := Option.some.inj held
    obtain ⟨-, low, high⟩ := filled c content
    exact ⟨rfl, low, high⟩

theorem rowSound_rowOf (f : StateFrame) : RowSound { age := 0, content := some (rowOf f) } := by
  refine ⟨Nat.zero_le _, fun _ => rfl, fun c held => ?_⟩
  obtain rfl := Option.some.inj held
  obtain ⟨low, high⟩ := clampNat_mem (lo := 200) (hi := 2000) (x := f.reportPeriod) (by omega)
  refine ⟨?_, low, high⟩
  have fresh : 0 * 10 < 3 * clampNat 200 2000 f.reportPeriod := by omega
  exact (if_pos fresh).symm

theorem contentAt_ageRows_none {n : Nat} {s : State} (h : contentAt n s = none) : contentAt n (ageRows s) = none := by
  simp only [contentAt, ageRows, State.withPeers_peers, List.getD_eq_getElem?_getD, List.getElem?_map] at h ⊢
  cases row : s.peers.rows[n]? with
  | none => rfl
  | some r =>
    rw [row] at h
    have empty : r.content = none := h
    simp [ageRow, empty]

theorem peersSound_ageRows {s : State} (accepted : isAccepted s = true) (h : PeersSound s) : PeersSound (ageRows s) := by
  obtain ⟨length, own, rows, -⟩ := h
  refine ⟨by simpa [ageRows] using length, contentAt_ageRows_none own, fun r member => ?_, fun none => ?_⟩
  · obtain ⟨r', member', rfl⟩ := List.mem_map.mp member
    exact rowSound_ageRow (rows r' member')
  · have still : isAccepted s = false := none
    simp [still] at accepted

theorem peersSound_refreshRow {s : State} {source : Nat} (f : StateFrame) (accepted : isAccepted s = true) (other : source ≠ s.loader.strap)
    (h : PeersSound s) : PeersSound (refreshRow source f s) := by
  obtain ⟨length, own, rows, -⟩ := h
  refine ⟨by simpa [refreshRow] using length, ?_, fun r member => ?_, fun none => ?_⟩
  · simp only [contentAt, List.getD_eq_getElem?_getD] at own ⊢
    simpa [refreshRow, List.getElem?_set, other] using own
  · rcases List.mem_or_eq_of_mem_set member with before | rfl
    · exact rows r before
    · exact rowSound_rowOf f
  · have still : isAccepted s = false := none
    simp [still] at accepted

end Sys2Proof.Proofs
end

section
namespace Sys2Proof.Proofs

open Sys2Proof.Machine Sys2Proof.Safety

/-! ### Peer Table, line and position of a station whose image has been read -/

/-- The image has been read and no reset lasts; Peer Table, line and position are sound. -/
def Sides (s : State) : Prop :=
  (s.loader.inReset = false ∧ s.loader.image ≠ .unread) ∧ PeersSound s ∧ LineShape s.line ∧ PositionSound s

theorem Sides.works {s : State} (h : Sides s) : lineWorks s = true := by
  obtain ⟨⟨notReset, read⟩, -⟩ := h
  simp [lineWorks, notReset, read]

theorem Sides.sound {s : State} (h : Sides s) : PeersSound s ∧ LineSound s ∧ PositionSound s := by
  have works := h.works
  obtain ⟨-, peers, line, position⟩ := h
  exact ⟨peers, (lineSound_of_works works).mpr line, position⟩

/-- An operation on the line alone. -/
theorem Sides.onLine {s t : State} (h : Sides s) (loader : t.loader = s.loader) (rows : t.peers.rows = s.peers.rows)
    (position : t.position = s.position) (line : LineShape t.line) : Sides t := by
  obtain ⟨read, peers, -, placed⟩ := h
  refine ⟨by rwa [loader], peersSound_congr peers rows (by rw [loader]) (by rw [loader]), line, ?_⟩
  rw [positionSound_iff, position, travelEnd_congr (s := s) (t := t) (by rw [loader])]
  exact placed

/-- An operation that leaves Peer Table and position alone, and of the line all but the mark. -/
theorem Sides.beside {s t : State} (h : Sides s) (loader : t.loader = s.loader) (rows : t.peers.rows = s.peers.rows)
    (position : t.position = s.position) (marks : MarkOnly s.line t.line) : Sides t :=
  h.onLine loader rows position (h.2.2.1.marks marks)

/-- An operation on the position alone. -/
theorem Sides.onPosition {s t : State} (h : Sides s) (loader : t.loader = s.loader) (rows : t.peers.rows = s.peers.rows)
    (line : t.line = s.line) (position : PositionShape (travelEnd s) t.position) : Sides t := by
  obtain ⟨read, peers, shape, -⟩ := h
  refine ⟨by rwa [loader], peersSound_congr peers rows (by rw [loader]) (by rw [loader]), by rwa [line], ?_⟩
  rw [positionSound_iff, travelEnd_congr (s := s) (t := t) (by rw [loader])]
  exact position

/-- An operation on the Peer Table alone. -/
theorem Sides.onPeers {s t : State} (h : Sides s) (loader : t.loader = s.loader) (position : t.position = s.position)
    (line : t.line = s.line) (peers : PeersSound t) : Sides t := by
  obtain ⟨read, -, shape, placed⟩ := h
  refine ⟨by rwa [loader], peers, by rwa [line], ?_⟩
  rw [positionSound_iff, position, travelEnd_congr (s := s) (t := t) (by rw [loader])]
  exact placed

theorem positionSound_elapse {s : State} (dt : Nat) (h : PositionSound s) : PositionSound (elapse dt s) := by
  rw [positionSound_iff, travelEnd_congr (elapse_image dt s)]
  unfold elapse
  split <;> exact h

theorem peersSound_elapse {s : State} (dt : Nat) (h : PeersSound s) : PeersSound (elapse dt s) :=
  peersSound_congr h (elapse_rows dt s) (elapse_strap dt s) (elapse_image dt s)

theorem Sides.elapse {s : State} (dt : Nat) (h : Sides s) : Sides (elapse dt s) := by
  obtain ⟨⟨notReset, read⟩, peers, line, position⟩ := h
  exact ⟨⟨by rwa [elapse_inReset], by rwa [elapse_image]⟩, peersSound_elapse dt peers, line.elapses dt, positionSound_elapse dt position⟩

theorem Sides.raise {s : State} (ks : List FaultKind) (h : Sides s) : Sides (raise ks s) :=
  h.beside (by simp) (by simp) (by simp) (.inl (by simp))

theorem Sides.clear {s : State} (ks : List FaultKind) (h : Sides s) : Sides (clearKinds ks s) := h.beside rfl rfl rfl (.inl rfl)

theorem Sides.hears {s : State} (coming : List LineChange) (h : Sides s) : Sides (hearLine coming s) :=
  h.onLine rfl rfl rfl (h.2.2.1.hears 0 coming)

/-! ### The Position Unit -/

theorem Sides.setEncoder {s : State} {d : Side} {e : EncoderSide} (h : Sides s) (sound : EncoderSound e)
    (counted : (encoderOf d s.position).lastCount.isSome → e.lastCount.isSome) :
    Sides (s.withPosition (setEncoder d e s.position)) :=
  h.onPosition rfl rfl rfl (PositionShape.setEncoder h.2.2.2 sound counted)

theorem Sides.recoverEncoder {s : State} (d : Side) (h : Sides s) : Sides (recoverEncoder d s) := by
  unfold Machine.recoverEncoder
  dsimp only
  split
  · refine Sides.clear _ (h.setEncoder ⟨?_, Nat.zero_le _⟩ id)
    exact (PositionShape.encoder d h.2.2.2).1
  · exact h

theorem Sides.evaluatePosition {s : State} {img : Image} (accepted : acceptedImage s = some img) (h : Sides s) :
    Sides (evaluatePosition img s) := by
  have last : travelEnd s = img.params.openMax := by simp [travelEnd, accepted]
  have computed : Sides (s.withPosition (recompute img s.position)) := by
    refine h.onPosition rfl rfl rfl ?_
    have before := h.2.2.2
    rw [positionSound_iff] at before
    rw [last] at before ⊢
    exact before.recompute
  have recovered := (computed.recoverEncoder .left).recoverEncoder .right
  refine Sides.raise _ ?_
  unfold clearTravel
  split
  · exact recovered
  · exact recovered.clear _

theorem Sides.endRead {s : State} {img : Image} {d : Side} {e : EncoderSide} (accepted : acceptedImage s = some img) (h : Sides s)
    (sound : EncoderSound e) (counted : (encoderOf d s.position).lastCount.isSome → e.lastCount.isSome) : Sides (endRead img d e s) := by
  have ended := h.setEncoder sound counted
  unfold Machine.endRead
  dsimp only
  split
  · exact ended.evaluatePosition accepted
  · exact ended

theorem Sides.failOpenRead {s : State} {img : Image} (d : Side) (accepted : acceptedImage s = some img) (h : Sides s) :
    Sides (failOpenRead img d s) := by
  unfold Machine.failOpenRead
  dsimp only
  split
  · exact h.endRead accepted encoderSound_failedRead id
  · exact h

theorem Sides.takeReply {s : State} {img : Image} (r : Request) (raw : Half) (verifies : Bool) (accepted : acceptedImage s = some img)
    (h : Sides s) : Sides (takeReply img r raw verifies s) := by
  unfold Machine.takeReply
  dsimp only
  split
  · exact h
  · split
    · exact h
    · split
      · exact h.endRead accepted encoderSound_goodRead fun _ => rfl
      · exact h.endRead accepted encoderSound_failedRead id

theorem Sides.closeWindow {s : State} {img : Image} (d : Side) (accepted : acceptedImage s = some img) (h : Sides s) :
    Sides (closeWindow img d s) := by
  unfold Machine.closeWindow
  split
  · exact h
  · exact (h.elapse _).failOpenRead d (by rwa [runOn, acceptedImage_elapse])

/-! ### The control tick -/

theorem Sides.evalBlock {s : State} (img : Image) (inputs : TickInputs) (b : Block) (h : Sides s) : Sides (evalBlock img inputs b s) := by
  by_cases position : b = .position
  · subst position
    exact h.onPosition rfl rfl rfl h.2.2.2
  · refine h.beside (by simp) (by simp) ?_ (evalBlock_marks img inputs b s)
    cases b <;> simp only [Machine.evalBlock, unlessAhead] <;> (try split) <;> simp_all

theorem Sides.evalTick {s : State} (img : Image) (inputs : TickInputs) (h : Sides s) : Sides (evalTick img inputs s) :=
  evalTick_keeps h fun b _ => Sides.evalBlock img inputs b

theorem Sides.takeTick {s : State} {img : Image} (inputs : TickInputs) (accepted : acceptedImage s = some img) (h : Sides s) :
    Sides (takeTick inputs img s) := by
  have begun : Sides (nextTick (hearLine inputs.line (runOn s.clocks.tick Config.tickMs s))) :=
    ((h.elapse _).hears inputs.line).beside rfl rfl rfl (.inl rfl)
  have still : acceptedImage (nextTick (hearLine inputs.line (runOn s.clocks.tick Config.tickMs s))) = some img := by
    refine (acceptedImage_congr (s := runOn s.clocks.tick Config.tickMs s) rfl).trans ?_
    rw [runOn, acceptedImage_elapse, accepted]
  refine Sides.evalTick img inputs ((begun.failOpenRead .left still).failOpenRead .right ?_)
  rwa [acceptedImage_congr (failOpenRead_loader ..)]

/-! ### Levels and tide -/

theorem Sides.tideEvent {s : State} (k : TideKind) (origin : TideOrigin) (head : Option Int) (h : Sides s) :
    Sides (makeTideEvent k origin head s) := h.onLine rfl rfl rfl (h.2.2.1.tideEvent k origin head)

theorem Sides.qualifyTide {s : State} (p : Params) (h : Sides s) : Sides (qualifyTide p s) := by
  unfold Machine.qualifyTide
  split
  · split
    · exact h.tideEvent ..
    · exact h.tideEvent ..
    · exact h
  · exact h

theorem Sides.evalTide {s : State} (p : Params) (h : Sides s) : Sides (evalTide p s) := by
  unfold Machine.evalTide
  split
  · exact h.beside rfl rfl rfl (.inl rfl)
  · dsimp only
    split
    · exact h.beside rfl rfl rfl (.inl rfl)
    · exact Sides.qualifyTide p (h.beside rfl rfl rfl (.inl rfl))

theorem Sides.levelSample {s : State} (img : Image) (up dn : Half) (h : Sides s) : Sides (levelSample img up dn s) := by
  have levelled : Sides (sampleLevels img up dn s) := by
    unfold sampleLevels
    refine Sides.evalTide _ ?_
    refine h.beside (by simp) (by simp) (by simp) (.inl (by simp))
  exact levelled.beside (by simp [Machine.levelSample]) (by simp [Machine.levelSample]) (by simp [Machine.levelSample])
    (.inl (by simp [Machine.levelSample]))

/-! ### Frames -/

theorem Sides.countError {s : State} (h : Sides s) : Sides (countError s) := h.onLine rfl rfl rfl (h.2.2.1.errors _)

theorem Sides.lineBusy {s : State} (h : Sides s) : Sides (lineBusy s) := h.onLine rfl rfl rfl h.2.2.1.busy

theorem Sides.frameArrives {s : State} (h : Sides s) : Sides (frameArrives s) := h.onLine rfl rfl rfl h.2.2.1.busy

theorem Sides.dropAtArrival {s : State} (h : Sides s) : Sides (dropAtArrival s) := h.lineBusy.countError

theorem Sides.dropFrame {s : State} (what : Reception) (receives : receiving s = true) (h : Sides s) : Sides (dropFrame what s) := by
  obtain ⟨-, silent, -⟩ := receiving_iff.mp receives
  have found (idle awaitIdle : Bool) (run : Option Nat) (recessive : idle = true → run = none) :
      Sides (s.withLine { s.line with idle := idle, awaitIdle := awaitIdle, dominantRun := run }) :=
    h.onLine rfl rfl rfl (h.2.2.1.received idle awaitIdle run silent recessive)
  cases what with
  | stopBitDominant => exact (found false true (some 0) (by simp)).countError
  | cutOff => exact (found true false none (by simp)).countError
  | lengthOver => exact (found false true none (by simp)).countError
  | arrived bytes =>
    change Sides (if arrivalFault bytes = true then Machine.dropAtArrival s else s)
    split
    · exact h.dropAtArrival
    · exact h

theorem Sides.answer {s : State} (source tag code : Nat) (result : CommandResult) (h : Sides s) : Sides (answer source tag code result s) :=
  h.beside rfl rfl rfl (.inr rfl)

theorem Sides.offerOrder {s : State} (img : Image) (k : OrderKind) (f : OfferedOrder) (time : Option (Nat × Nat)) (h : Sides s) :
    Sides (offerOrder img k f time s) := by
  unfold Machine.offerOrder
  split
  · exact h
  · split
    · refine h.beside ?_ ?_ ?_ (.inr ?_) <;> split <;> simp [adopt]
    · exact h

theorem Sides.takeOrderFrame {s : State} (source : Nat) (payload : List Byte) (h : Sides s) : Sides (takeOrderFrame source payload s) := by
  unfold Machine.takeOrderFrame
  split
  · exact h
  · split
    · exact h.countError
    · split
      · exact h.countError
      · split
        · exact h
        · exact h.offerOrder ..

theorem Sides.takeEcho {s : State} (img : Image) (f : OfferedOrder) (h : Sides s) : Sides (takeEcho img f s) := by
  unfold Machine.takeEcho
  (repeat' split) <;> first | exact h | exact h.countError | exact h.offerOrder ..

theorem Sides.takeStateFrame {s : State} (source : Nat) (f : StateFrame) (h : Sides s) : Sides (takeStateFrame source f s) := by
  unfold Machine.takeStateFrame
  split
  · exact h
  · next img accepted =>
    split
    · exact Sides.raise _ (h.onPeers (t := s.withPeers _) rfl rfl rfl (peersSound_congr h.2.1 rfl rfl rfl))
    · next other =>
      split
      · refine Sides.takeEcho img _ (h.onPeers rfl rfl rfl (peersSound_refreshRow f ?_ other h.2.1))
        simp [isAccepted, accepted]
      · exact h.countError

theorem Sides.takeTideFrame {s : State} (source : Nat) (r : TideRecord) (h : Sides s) : Sides (takeTideFrame source r s) := by
  unfold Machine.takeTideFrame
  split
  · split
    · exact h.beside rfl rfl rfl (.inl rfl)
    · split
      · exact h
      · exact h.tideEvent ..
  · exact h

theorem Sides.arrival {source : Byte} {f : State → State} {s : State} (h : Sides s) (acts : Sides (Machine.frameArrives s) → Sides (f (Machine.frameArrives s))) :
    Sides (arrival source f s) :=
  arrival_keeps h (fun _ => h.dropAtArrival) fun _ _ => acts h.frameArrives

/-! ### Commands -/

theorem Sides.command {source target tag : Byte} {code level : Nat} {act : State → State × CommandResult} {s : State} (h : Sides s)
    (acts : ∀ t, Sides t → Sides (act t).1) : Sides (command source target tag code level act s) :=
  command_keeps h (fun _ => h.dropAtArrival) (fun _ => h.frameArrives) (fun _ => Sides.countError) (fun _ _ => Sides.answer _ _ _ _)
    fun _ _ _ => acts _ h.frameArrives

theorem Sides.doResume {s : State} (h : Sides s) : Sides (doResume s).1 := by
  unfold Machine.doResume
  split
  · exact h.beside (by simp) (by simp) (by simp) (.inl (by simp))
  · exact h

theorem Sides.doTideEvent {s : State} (argument : Nat) (h : Sides s) : Sides (doTideEvent argument s).1 := by
  unfold Machine.doTideEvent
  split
  · exact h
  · split
    · exact h
    · exact h.tideEvent ..

theorem Sides.doAbandon {s : State} (h : Sides s) : Sides (doAbandon s).1 := by
  unfold Machine.doAbandon
  split
  · exact h
  · split
    · exact h.beside (by simp) (by simp) (by simp) (.inl (by simp))
    · split
      · exact h.beside rfl rfl rfl (.inl rfl)
      · exact h

theorem Sides.doClearFault {s : State} (h : Sides s) : Sides (doClearFault s).1 := by
  unfold Machine.doClearFault
  split
  · exact h
  · exact h.beside (by simp) (by simp) (by simp) (.inl (by simp))

theorem Sides.doClearCounts {s : State} (h : Sides s) : Sides (doClearCounts s).1 := by
  obtain ⟨state, tide, sends, idle, timer, -⟩ := h.2.2.1
  exact h.onLine rfl rfl rfl ⟨state, tide, sends, idle, timer, Nat.zero_le _⟩

end Sys2Proof.Proofs
end

section
namespace Sys2Proof.Proofs

open Sys2Proof.Machine Sys2Proof.Safety

/-- The soundness of Peer Table, line and position together. -/
def SidesSound (s : State) : Prop := PeersSound s ∧ LineSound s ∧ PositionSound s

/-! ### The events of a station whose image has been read -/

theorem Sides.runOn {s : State} (age limit : Nat) (h : Sides s) : Sides (runOn age limit s) := h.elapse _

theorem Sides.nextSample {s : State} (h : Sides s) : Sides (nextSample s) :=
  h.beside (by simp) (by simp) (by simp) (.inl (by simp))

theorem Sides.nextAgeing {s : State} (h : Sides s) : Sides (nextAgeing s) :=
  h.beside (by simp) (by simp) (by simp) (.inl (by simp))

theorem Sides.runToTick {s : State} (m : Nat) (h : Sides s) : Sides (runToTick m s) := h.elapse _

theorem Sides.evalGrant {s : State} (img : Image) (pumpReady : Bool) (h : Sides s) : Sides (evalGrant img pumpReady s) :=
  h.beside (by simp) (by simp) (by simp) (.inl (by simp))

theorem Sides.evalDrive {s : State} (img : Image) (readbackL readbackR : Half) (h : Sides s) : Sides (evalDrive img readbackL readbackR s) :=
  h.beside (by simp) (by simp) (by simp) (.inl (by simp))

theorem Sides.evalPlan {s : State} (img : Image) (h : Sides s) : Sides (evalPlan img s) :=
  h.beside (by simp) (by simp) (by simp) (evalPlan_marks img s)

theorem Sides.grantAtTick {s : State} (img : Image) (pumpReady : Bool) (remaining : Nat) (h : Sides s) :
    Sides (grantAtTick img pumpReady remaining s) :=
  Sides.evalGrant img pumpReady ((h.runToTick _).beside rfl rfl rfl (.inl rfl))

theorem Sides.driveAtTick {s : State} (img : Image) (remaining : Nat) (h : Sides s) : Sides (driveAtTick img remaining s) :=
  Sides.evalDrive img _ _ ((h.runToTick _).beside rfl rfl rfl (.inl rfl))

theorem Sides.planAtTick {s : State} (img : Image) (h : Sides s) : Sides (planAtTick img s) :=
  Sides.evalPlan img ((h.runToTick _).beside rfl rfl rfl (.inl rfl))

theorem Sides.enterMode {s : State} (new : Mode) (h : Sides s) : Sides (enterMode new s) :=
  h.beside (by simp) (by simp) (by simp) (.inl (by simp))

theorem Sides.endStorm {s : State} (img : Image) (h : Sides s) : Sides (endStorm img s) := by
  unfold Machine.endStorm
  split
  · exact Sides.enterMode _ (h.runOn _ _)
  · exact h

theorem Sides.reachPeriod {s : State} (h : Sides s) : Sides (reachPeriod s) := by
  unfold Machine.reachPeriod
  split
  · split
    · exact h
    · next age _ _ =>
      have later := h.runOn age (reportPeriod s)
      exact later.onLine rfl rfl rfl later.2.2.1
  · exact h

theorem Sides.expireTx {s : State} (h : Sides s) : Sides (expireTx s) := by
  unfold Machine.expireTx
  split
  · split
    · exact h
    · next age _ _ =>
      have later := h.runOn age Config.txBlockedMs
      exact Sides.raise _ (later.onLine (t := State.withLine _ _) rfl rfl rfl later.2.2.1)
  · exact h

/-- A run of another node that has come to 2001 ms leaves the line not idle and the receiver waiting (R173, R174). -/
theorem Sides.exceedRun {s : State} (h : Sides s) : Sides (exceedRun s) := by
  unfold Machine.exceedRun
  split
  · next age _ =>
    split
    · have later := h.runOn age (Config.txBlockedMs + 1)
      obtain ⟨state, tide, -, -, timer, errors⟩ := later.2.2.1
      exact Sides.raise _ (later.onLine (t := State.withLine _ _) rfl rfl rfl ⟨state, tide, by simp, by simp, timer, errors⟩)
    · exact h
  · exact h

theorem Sides.stops {s : State} {bit : Nat} {driven : Bool} (drives : drivenBit bit s = some driven) (h : Sides s) :
    Sides (stopSending driven s) := by
  refine h.onLine rfl rfl rfl (h.2.2.1.stops driven (h.2.2.1.2.2.1 ?_))
  cases sending : s.line.sending with
  | none => simp [drivenBit, sending] at drives
  | some f => rfl

/-- Every event of a station whose image has been read keeps Peer Table, line and position sound; the resets leave initial states. -/
theorem Sides.effect_sound {i : Instr} {s : State} (h : Sides s) (image : IsImageEvent i → effect i s = s)
    (resets : ∀ t, AfterReset t → SidesSound t) : SidesSound (effect i s) := by
  by_cases isImage : IsImageEvent i
  · rw [image isImage]; exact h.sound
  by_cases isRestart : ∃ source target argument tag straps, i = .restart source target argument tag straps
  · obtain ⟨source, target, argument, tag, straps, rfl⟩ := isRestart
    refine arrival_keeps (P := SidesSound) h.sound (fun _ => h.dropAtArrival.sound) fun _ _ => ?_
    refine addressed_keeps (P := SidesSound) h.frameArrives.sound h.frameArrives.countError.sound ?_
    exact authorised_keeps (P := SidesSound) (h.frameArrives.answer _ _ _ _).sound fun _ _ => resets _ (afterReset_doRestart straps _)
  by_cases isPower : ∃ supply, i = .powerOnReset supply
  · obtain ⟨supply, rfl⟩ := isPower
    exact resets _ (afterReset_beginReset supply s)
  refine Sides.sound ?_
  have accepted {f : Image → State → State} (acts : ∀ img, acceptedImage s = some img → Sides (f img s)) : Sides (whileAccepted f s) :=
    whileAccepted_keeps h acts
  have works {f : State → State} (acts : Sides (f s)) : Sides (whileLineWorks f s) := whileLineWorks_keeps h fun _ => acts
  have dropped : Sides (if receiving s then Machine.dropAtArrival s else s) := dropUnlessReceiving_keeps h fun _ => h.dropAtArrival
  cases i <;> simp only [effect]
  case powerOnReset supply => exact absurd ⟨supply, rfl⟩ isPower
  case restart source target argument tag straps => exact absurd ⟨source, target, argument, tag, straps, rfl⟩ isRestart
  case resetEnd straps => exact absurd (.resetEnd straps) isImage
  case imageReadFailed => exact absurd .failed isImage
  case imageReadRetry => exact absurd .retry isImage
  case imageReadComplete bytes inputs up dn => exact absurd (.complete bytes inputs up dn) isImage
  case controlTick inputs =>
    split
    · next img held => exact h.takeTick inputs held
    · exact works (h.hears _)
  case encoderReply => exact accepted fun img held => h.takeReply _ _ _ held
  case replyWindow => exact accepted fun img held => h.closeWindow _ held
  case encFault =>
    refine accepted fun img _ => ?_
    split
    · exact h.raise _
    · exact h
  case encRecovery => exact accepted fun _ _ => h.recoverEncoder _
  case levelSample =>
    exact accepted fun img _ => Sides.levelSample img _ _ (h.runOn _ _).nextSample
  case levelFault =>
    refine accepted fun img _ => ?_
    split
    · exact h.raise _
    · exact h
  case levelRecovery => exact accepted fun _ _ => h.beside (by simp) (by simp) (by simp) (.inl (by simp))
  case tideQualified => exact accepted fun img _ => h.qualifyTide _
  case peerAgeing =>
    refine accepted fun img held => ?_
    have later : Sides (Machine.nextAgeing (Machine.runOn s.clocks.age Config.ageMs s)) :=
      (h.runOn _ _).nextAgeing
    refine later.onPeers (by simp) (by simp) (by simp) (peersSound_ageRows ?_ later.2.1)
    have still : acceptedImage (Machine.nextAgeing (Machine.runOn s.clocks.age Config.ageMs s)) = some img :=
      (acceptedImage_elapse _ _).trans held
    simp [isAccepted, still]
  case orderFrame =>
    split
    · exact h.arrival fun arrived => arrived.takeOrderFrame _ _
    · exact dropped
  case stateFrame =>
    split
    · exact h.arrival fun arrived => arrived.takeStateFrame _ _
    · exact dropped
  case tideFrame =>
    split
    · exact h.arrival fun arrived => arrived.takeTideFrame _ _
    · exact dropped
  case resume => exact h.command fun _ => Sides.doResume
  case finishAtHold =>
    refine h.command fun t ht => ?_
    unfold doFinishAtHold
    split <;> exact ht
  case tideEvent => exact h.command fun _ => Sides.doTideEvent _
  case abandon => exact h.command fun _ => Sides.doAbandon
  case clearFault => exact h.command fun _ => Sides.doClearFault
  case clearCounts => exact h.command fun _ => Sides.doClearCounts
  case unknownCommand =>
    split
    · exact h
    · exact h.arrival fun arrived => addressed_keeps arrived arrived.countError (arrived.answer _ _ _ _)
  case frameDropped =>
    split
    · next receives => exact h.dropFrame _ receives
    · exact h
  case duplicateClear =>
    refine accepted fun img _ => ?_
    split
    · next age _ =>
      have later := h.runOn age (10 * img.params.reportPeriod)
      exact Sides.clear _ (later.onPeers (t := State.withPeers _ _) rfl rfl rfl (peersSound_congr later.2.1 rfl rfl rfl))
    · exact h
  case alone =>
    refine accepted fun img _ => ?_
    split
    · exact (h.runOn _ _).raise _
    · exact h
  case periodicReport => exact works h.reachPeriod
  case gapEnd => exact works (h.runOn _ _)
  case sendStart => exact works (h.onLine (by simp) (by simp) (by simp) h.2.2.1.starts)
  case lostArbitration =>
    refine works ?_
    split
    · next drives => exact h.stops drives
    · exact h
  case lineNotFollowing =>
    refine works ?_
    split
    · next drives => exact h.stops drives
    · exact h
  case frameComplete => exact works (h.onLine (by simp) (by simp) (by simp) h.2.2.1.completes)
  case txBlockedTimer => exact works h.expireTx
  case dominantRun => exact works h.exceedRun
  case lineIdle => exact works (h.onLine (by simp) (by simp) (by simp) h.2.2.1.idles)
  case announceWait =>
    refine accepted fun img _ => ?_
    split
    · exact h.grantAtTick _ _ _
    · exact h
  case warnLead =>
    refine accepted fun img _ => ?_
    split
    · exact h.grantAtTick _ _ _
    · exact h
  case pumpWait =>
    refine accepted fun img _ => ?_
    split
    · exact h.grantAtTick _ _ _
    · exact h
  case valveMismatch =>
    refine accepted fun img _ => ?_
    split
    · exact h.raise _
    · exact h
  case stall =>
    refine accepted fun img _ => ?_
    split
    · exact h.driveAtTick _ _
    · exact h
  case stormClearTime => exact accepted fun img _ => h.endStorm _
  case dwellExpired =>
    refine accepted fun img _ => ?_
    split
    · exact h.planAtTick _
    · exact h
  case weirClockDay => exact h.elapse _

/-! ### The events of the image -/

theorem sidesSound_afterReset {t : State} (h : AfterReset t) : SidesSound t := by
  obtain ⟨cause, lasts, straps, queue, rfl⟩ := h
  exact ⟨peersSound_initial cause lasts straps, lineSound_initial cause lasts straps, positionSound_initial cause lasts straps⟩

/-- What stands of Peer Table and position before the image is read stands with any image: nothing is held (R13, R48). -/
theorem sides_of_unread {s t : State} (unread : s.loader.image = .unread) (h : SidesSound s) (strap : t.loader.strap = s.loader.strap)
    (notReset : t.loader.inReset = false) (read : t.loader.image ≠ .unread) (peers : t.peers.rows = s.peers.rows)
    (position : t.position = s.position) (line : LineShape t.line) : Sides t := by
  obtain ⟨⟨length, own, rows, empty⟩, -, established, left, right, opening⟩ := h
  have noImage : acceptedImage s = none := acceptedImage_of_unread unread
  refine ⟨⟨notReset, read⟩, ⟨by rwa [peers], ?_, by rwa [peers], ?_⟩, line, ?_⟩
  · rw [contentAt_congr _ peers, strap]; exact own
  · intro _
    rw [peers]
    exact empty (by simp [isAccepted, noImage])
  · rw [PositionSound, position]
    have closed : s.position.opening = 0 := by simpa [travelEnd, noImage] using opening
    exact ⟨established, left, right, by rw [closed]; exact Nat.zero_le _⟩

theorem sidesSound_image {i : Instr} {s : State} (image : IsImageEvent i) (unread : s.loader.image = .unread) (start : StartSound s)
    (h : SidesSound s) : SidesSound (effect i s) := by
  have shape := (lineSound_iff.mp h.2.1).1
  have rejects {t : State} (notReset : t.loader.inReset = false) (strap : t.loader.strap = s.loader.strap)
      (peers : t.peers.rows = s.peers.rows) (position : t.position = s.position) (line : LineShape t.line) : SidesSound (rejectImage t) := by
    refine (sides_of_unread unread h ?_ ?_ ?_ (by simpa using peers) (by simpa using position) (by simpa using line)).sound
    · simpa [rejectImage] using strap
    · simpa [rejectImage] using notReset
    · simp [rejectImage]
  cases image with
  | resetEnd straps =>
    simp only [effect, endReset]
    split
    · exact sidesSound_afterReset ⟨_, _, _, _, rfl⟩
    · exact h
  | failed =>
    simp only [effect, failAttempt_eq]
    split
    · next reading =>
      obtain ⟨-, -, notReset, -⟩ := startSound_reading start reading
      split
      · exact h
      · exact rejects notReset rfl rfl rfl shape
    · exact h
  | retry =>
    simp only [effect, beginRetry]
    split
    · exact h
    · exact ⟨peersSound_elapse _ h.1, lineSound_elapse _ h.2.1, positionSound_elapse _ h.2.2⟩
  | complete bytes inputs up dn =>
    simp only [effect]
    rcases completeRead_cases bytes inputs up dn s with stays | ⟨reading, rejected | ⟨img, accepted⟩⟩
    · rw [stays]; exact h
    · obtain ⟨-, -, notReset, -⟩ := startSound_reading start reading
      rw [rejected]
      exact rejects notReset rfl rfl rfl (shape.hears 0 inputs.line)
    · obtain ⟨-, -, notReset, -⟩ := startSound_reading start reading
      have held : Sides (holdImage img (hearLine inputs.line (attempted s))) :=
        sides_of_unread unread h rfl notReset (by simp [holdImage]) rfl rfl (shape.hears 0 inputs.line)
      have sampled : Sides (sampleKeys inputs.maintKey inputs.localKey inputs.stormInput (holdImage img (hearLine inputs.line (attempted s)))) :=
        held.beside (by simp) (by simp) (by simp) (.inl (by simp))
      have levelled := sampled.levelSample img up dn
      rw [accepted]
      exact (Sides.evalTick img inputs (levelled.beside (by simp) (by simp) (by simp) (.inl (by simp)))).sound

theorem sidesSound_elapse {s : State} (dt : Nat) (h : SidesSound s) : SidesSound (elapse dt s) :=
  ⟨peersSound_elapse dt h.1, lineSound_elapse dt h.2.1, positionSound_elapse dt h.2.2⟩

/-- The end of an event builds a report with the line working alone (R44). -/
theorem sidesSound_concludes {s t : State} (h : SidesSound t) : SidesSound (concludeEvent s t) := by
  obtain ⟨peers, line, position⟩ := h
  cases works : lineWorks t with
  | false => rw [concludeEvent_of_not_lineWorks s works]; exact ⟨peers, line, position⟩
  | true =>
    refine ⟨peersSound_congr peers (by simp) (by simp) (by simp), ?_, ?_⟩
    · rw [lineSound_of_works (by rwa [lineWorks_congr (concludeEvent_loader s t)])]
      exact ((lineSound_of_works works).mp line).concludes
    · rw [positionSound_iff, concludeEvent_position, travelEnd_congr (s := t) (by rw [concludeEvent_loader])]
      exact position

/-! ### The step (O59) -/

/-- A station whose image has been read is out of reset, with no read and no wait. -/
theorem startSound_read {s : State} (start : StartSound s) (read : s.loader.image ≠ .unread) :
    s.loader.inReset = false ∧ s.loader.reading = false ∧ s.loader.retryTimer = none := by
  obtain ⟨-, -, -, inReset, reading, -, waiting⟩ := start
  refine ⟨?_, ?_, ?_⟩
  · by_contra lasts; exact read (inReset (Bool.eq_true_of_not_eq_false lasts)).1
  · by_contra reads; exact read (reading (Bool.eq_true_of_not_eq_false reads))
  · by_contra waits; exact read (waiting (Option.isSome_iff_ne_none.mpr waits))

theorem sidesSound_effect {i : Instr} {s : State} (start : StartSound s) (h : SidesSound s) : SidesSound (effect i s) := by
  by_cases unread : s.loader.image = .unread
  · by_cases isImage : IsImageEvent i
    · exact sidesSound_image isImage unread start h
    · by_cases isReset : IsReset i
      · cases isReset with
        | powerOn supply => exact sidesSound_afterReset (afterReset_beginReset supply s)
        | restart source target argument tag straps =>
          have stays : effect (.restart source target argument tag straps) s = s :=
            arrival_of_not_receiving source _ (receiving_of_not_lineWorks (lineWorks_of_unread unread))
          rw [stays]; exact h
      · rcases effect_of_unread unread isReset isImage with stays | ⟨dt, runsOn⟩
        · rw [stays]; exact h
        · rw [runsOn]; exact sidesSound_elapse dt h
  · obtain ⟨notReset, notReading, notWaiting⟩ := startSound_read start unread
    have works : lineWorks s = true := by simp [lineWorks, notReset, unread]
    have sides : Sides s := ⟨⟨notReset, unread⟩, h.1, (lineSound_of_works works).mp h.2.1, h.2.2⟩
    exact sides.effect_sound (fun image => effect_of_image_read image notReset notReading notWaiting) fun _ => sidesSound_afterReset

/-- Settles O59: the event in front, with the report at its end, or the millisecond that passes. -/
theorem everyStepKeepsLineSound : Obligations.EveryStepKeepsLineSound := by
  intro s t peers line position start run
  have sound : SidesSound s := ⟨peers, line, position⟩
  unfold step at run
  split at run
  · obtain rfl := Host.Outcome.next.inj run
    exact sidesSound_elapse 1 sound
  · next i rest _ =>
    rw [exec_eq_next run]
    exact sidesSound_concludes (sidesSound_effect (s := s.withPending rest) start sound)

end Sys2Proof.Proofs
end

section
/-! SUPPORT. Events whose effects are one operation: resets, the wait of an attempt, single conditions, the turn of the day (O3, O5, O12, O13,
O17, O22, O50). -/

namespace Sys2Proof.Proofs

open Sys2Proof.Machine Sys2Proof.Safety

/-- An event with the effects `u` leaves `u` but for the line, in which a report may have been built. -/
theorem exec_of_effect {i : Instr} {s u : State} (h : effect i s = u) :
    ∃ t, exec i s = .next t ∧ t = { u with line := t.line } ∧ Reported u.line t.line := by
  subst h
  exact ⟨_, exec_eq_effect i s, concludeEvent_eq .., concludeEvent_reported ..⟩

/-- An event without effects. -/
theorem exec_quiet {i : Instr} {s : State} (h : effect i s = s) : ∃ t, exec i s = .next t ∧ Quiet s t := exec_of_effect h

theorem effect_of_accepted {i : Instr} {s : State} {img : Image} {f : Image → State → State} (accepted : acceptedImage s = some img)
    (form : effect i = whileAccepted f) : effect i s = f img s := by
  rw [form]
  exact whileAccepted_of_some f accepted

/-! ### Resets (O3) -/

/-- A reset leaves an initial state, whatever it was before; the line does not work, so that no report follows. -/
theorem exec_of_reset {i : Instr} {s : State} {cause : RestartCause} {lasts : Bool} {straps : Nat}
    (h : effect i s = (State.initial cause lasts straps).withPending s.pending) :
    exec i s = .next ((State.initial cause lasts straps).withPending s.pending) := by
  rw [exec_eq_effect, h, concludeEvent_of_not_lineWorks s (by simp [lineWorks, State.initial])]

/-- Settles O3: both events of a reset leave an initial state. -/
theorem resetRestoresInitialState : Obligations.ResetRestoresInitialState := by
  refine ⟨fun supply s => ?_, fun straps s lasts => ?_⟩
  · refine ⟨_, exec_of_reset (cause := resetCause supply s) (lasts := true) (straps := 0) rfl, atReset_initial .., rfl, rfl, rfl, ?_⟩
    change resetCause supply s = _
    simp [resetCause]
  · have ends : effect (.resetEnd straps) s = (State.initial s.loader.cause false straps.toNat).withPending s.pending := if_pos lasts
    exact ⟨_, exec_of_reset ends, atReset_initial .., rfl, rfl, rfl, rfl, rfl⟩

/-! ### The image read (O5) -/

/-- Settles O5: a failed attempt below the fourth starts the wait, whose end begins the next. -/
theorem failedReadIsTriedAgain : Obligations.FailedReadIsTriedAgain := by
  refine fun s _ => ⟨fun reading few => ?_, fun age waits => ?_⟩
  · have fails : effect .imageReadFailed s = (attempted s).withLoader { (attempted s).loader with retryTimer := some 0 } := by
      simp only [effect, failAttempt_eq]
      rw [if_pos reading, if_pos (by omega)]
    exact exec_of_effect fails
  · have begins : effect .imageReadRetry s =
        (elapse (10 - age) s).withLoader { (elapse (10 - age) s).loader with retryTimer := none, reading := true } := by
      simp only [effect, beginRetry, waits]
      rfl
    exact exec_of_effect begins

/-! ### Conditions (O12, O13, O22) -/

theorem channelKind_degrades (c : ChannelId) : isStopClass (channelKind c) = false := by cases c <;> rfl

/-- A degrade-class kind whose condition becomes active (R160 to R162). -/
theorem raise_of_degrade {k : FaultKind} {s : State} (degrades : isStopClass k = false) (inactive : condition k s = false) :
    raise [k] s = s.withModeCtl (raisedModes k s) := (raise_of_not_stop degrades).trans (latchKinds_of_inactive inactive)

/-- Settles O12. -/
theorem levelFaultIsLatchedOnly : Obligations.LevelFaultIsLatchedOnly := by
  intro channel s img accepted fails inactive
  have raises : effect (.levelFault channel) s = s.withModeCtl (raisedModes (channelKind channel) s) := by
    rw [effect_of_accepted accepted rfl, if_pos (by simpa [channelFails] using fails)]
    exact raise_of_degrade (channelKind_degrades channel) inactive
  exact exec_of_effect raises

/-- Settles O13: both recoveries find a good run of 8 and an active condition. -/
theorem eighthGoodReadRecovers : Obligations.EighthGoodReadRecovers := by
  refine fun s img accepted => ⟨fun side run active => ?_, fun channel run active => ?_⟩
  · have recovers : effect (.encRecovery side) s =
        clearKinds [encoderKind side]
          (s.withPosition (setEncoder side { encoderOf side s.position with goodRun := 0 } s.position)) := by
      rw [effect_of_accepted accepted rfl]
      exact if_pos (by simp [encoderRecovers, run, active])
    exact exec_of_effect recovers
  · have recovers : effect (.levelRecovery channel) s =
        clearKinds [channelKind channel] (s.withLevel (setChannel channel { channelOf channel s.level with goodRun := 0 } s.level)) := by
      rw [effect_of_accepted accepted rfl]
      exact if_pos (by simp [run, active])
    exact exec_of_effect recovers

/-- Settles O22: each timer's row runs the time on to ten report periods. -/
theorem silenceTimersActAtTenPeriods : Obligations.SilenceTimersActAtTenPeriods := by
  intro s b img serving
  obtain ⟨accepted, -⟩ := serving
  refine ⟨fun age runs moment => ?_, fun peers inactive moment => ?_⟩
  · have ends : effect .duplicateClear s = clearKinds [.duplicate] (b.withPeers { b.peers with duplicateTimer := none }) := by
      rw [effect_of_accepted accepted rfl, runs, moment]
      rfl
    exact exec_of_effect ends
  · have raises : effect .alone s = b.withModeCtl (raisedModes .alone b) := by
      rw [effect_of_accepted accepted rfl, if_pos peers, moment]
      exact raise_of_degrade rfl ((condition_elapse ..).trans inactive)
    exact exec_of_effect raises

/-! ### The tide's toggle (O17) -/

/-- Settles O17: the window toggles away from the kind at which it stands. -/
theorem qualifiedTideTogglesWindow : Obligations.QualifiedTideTogglesWindow := by
  intro s img k accepted qualified toggles
  have effects : effect .tideQualified s = makeTideEvent k .detected s.level.head s := by
    rw [effect_of_accepted accepted rfl]
    unfold qualifyTide
    rw [if_pos qualified]
    rcases toggles with ⟨window, rfl⟩ | ⟨window, rfl⟩ <;> rw [window]
  exact exec_of_effect effects

/-! ### The weir clock (O50) -/

/-- Settles O50: the time runs on to the millisecond at which the day is over. -/
theorem weirClockTurnsTheDay : Obligations.WeirClockTurnsTheDay := by
  intro s b notReset day moment
  obtain ⟨t, run, frame, reported⟩ := exec_of_effect (i := .weirClockDay) (s := s) (u := b) moment.symm
  have order : t.order = clockAfter (86400000 - s.order.clockMs) s.order := by
    rw [frame, moment]
    simp [elapse, notReset]
  have turned : s.order.clockMs + (86400000 - s.order.clockMs) = 86400000 := by omega
  refine ⟨t, run, ?_, ?_, frame, reported⟩
  · rw [order, clockAfter, turned]
    rfl
  · rw [order, clockAfter, turned]
    rfl

end Sys2Proof.Proofs
end

section
/-! SUPPORT. The entry into FAULT, whole (R102, R142, R151). -/

namespace Sys2Proof.Proofs

open Sys2Proof.Machine Sys2Proof.Safety

theorem enterMode_fault_eq (s : State) :
    enterMode .fault s =
      { s with
        modeCtl :=
          { s.modeCtl with mode := .fault, relay := false, stormClear := none, active := moveConditionsEnded s.modeCtl.active }
        grant := claimStill s.grant
        drive := if s.grant.moveState = .moving then driveAtRest s else s.drive
        plan := if s.modeCtl.mode = .auto then planHeld s.plan else s.plan } := by
  have still : standStill (setMode .fault s) =
      { s with
        modeCtl :=
          { s.modeCtl with mode := .fault, relay := false, stormClear := none, active := moveConditionsEnded s.modeCtl.active }
        grant := claimStill s.grant
        drive := if s.grant.moveState = .moving then driveAtRest s else s.drive } := by
    unfold standStill
    by_cases moves : s.grant.moveState = .moving
    · simp only [setMode, State.withModeCtl, moves, if_true]
      rfl
    · simp only [setMode, State.withModeCtl, moves, if_false]
      rfl
  rw [enterMode_fault]
  split
  · rw [holdPlan_held, still]; rfl
  · exact still

/-- A stop-class kind that was neither active nor latched, raised in a mode that it ends: the station in FAULT, whole (R161). -/
theorem raise_of_stop_eq {k : FaultKind} {s : State} (stop : isStopClass k = true) (serves : canFault s.modeCtl.mode = true)
    (inactive : condition k s = false) (unlatched : hasFault k s.modeCtl.latched = false) :
    raise [k] s =
      { s with
        modeCtl :=
          { raisedModes k s with
            mode := .fault, relay := false, stormClear := none, active := moveConditionsEnded (addFault k s.modeCtl.active) }
        grant := claimStill s.grant
        drive := if s.grant.moveState = .moving then driveAtRest s else s.drive
        plan := if s.modeCtl.mode = .auto then planHeld s.plan else s.plan } := by
  rw [raise_of_stop stop serves inactive unlatched, enterMode_fault_eq]
  rfl

/-- With all that is active latched and no stop-class kind latched, no stop-class kind is active either. -/
theorem stopClass_inactive {k : FaultKind} {m : ModeCtl} (stop : isStopClass k = true) (free : hasStopClass m.latched = false)
    (subset : m.active &&& m.latched = m.active) : hasFault k m.active = false := by
  by_contra active
  have latched := hasFault_of_subset subset (Bool.eq_true_of_not_eq_false active)
  rw [hasStopClass_eq_false.mp free k stop] at latched
  cases latched

/-- What a stop-class kind makes of a station, with whatever else has been done to it at the same event (R161). -/
theorem exec_raises_stop {i : Instr} {k : FaultKind} {s u : State} (raises : effect i s = raise [k] u) (stop : isStopClass k = true)
    (serves : canFault u.modeCtl.mode = true) (inactive : condition k u = false) (unlatched : hasFault k u.modeCtl.latched = false) :
    ∃ t, exec i s = .next t ∧ StandsInFault t ∧ FaultFrame u t ∧ t.modeCtl.latched = addFault k u.modeCtl.latched ∧
      t.modeCtl.active = moveConditionsEnded (addFault k u.modeCtl.active) ∧ t.drive.stall = (if u.grant.moveState = .moving then none else u.drive.stall) := by
  rw [raise_of_stop_eq stop serves inactive unlatched] at raises
  obtain ⟨t, run, frame, -⟩ := exec_of_effect raises
  refine ⟨t, run, ?_, ?_, ?_, ?_, ?_⟩
  · rw [frame]
    exact ⟨rfl, rfl, rfl, rfl, rfl, rfl, rfl, rfl, rfl, rfl, rfl⟩
  · rw [frame]
  · rw [frame]
  · rw [frame]
  · rw [frame]
    dsimp only
    split <;> rfl

end Sys2Proof.Proofs
end

section
/-! SUPPORT. Frames from their arrival to the rows, the window and the error counter (O18 to O21, O23). -/

namespace Sys2Proof.Proofs

open Sys2Proof.Machine Sys2Proof.Safety

/-- A saturating count is a minimum, wherever it stands. -/
theorem countTo_min (m n : Nat) : countTo m n = min m (n + 1) := by unfold countTo; split <;> omega

theorem countError_eq (s : State) : countError s = s.withLine { s.line with errors := min 255 (s.line.errors + 1) } := by
  unfold countError
  rw [countTo_min]

theorem exec_onlyHeard {i : Instr} {s : State} (h : effect i s = frameArrives s) : ∃ t, exec i s = .next t ∧ OnlyHeard s t :=
  exec_of_effect h

theorem countError_heard (s : State) :
    countError (frameArrives s) =
      { s with
        line := { heardLine s.line with errors := min 255 (s.line.errors + 1) }, modeCtl := heardModes s.modeCtl } := by
  rw [countError_eq, frameArrives_eq]
  dsimp only [State.withLine]

theorem exec_heardAndCounted {i : Instr} {s : State} (h : effect i s = countError (frameArrives s)) :
    ∃ t, exec i s = .next t ∧ HeardAndCounted s t := by
  rw [countError_heard] at h
  exact exec_of_effect h

/-- A receiver sends nothing. -/
theorem sending_of_receiving {s : State} (h : receiving s = true) : s.line.sending = none := (receiving_iff.mp h).2.1

theorem sendingTide_of_receiving {s : State} (h : receiving s = true) : sendingTide s = false := by
  simp [sendingTide, sending_of_receiving h]

/-- A tide event at the arrival of a frame: no TIDE of the station's own is on the line (R28, R30, R172). -/
theorem makeTideEvent_heard (k : TideKind) (origin : TideOrigin) (head : Option Int) {s : State} (receives : receiving s = true) :
    makeTideEvent k origin head (frameArrives s) =
      { s with
        tide := { s.tide with window := windowOf k, candidate := 0, latch := latchAtEvent k s }
        modeCtl := heardModes s.modeCtl
        line :=
          { heardLine s.line with
            tideSlot := some { kind := k, origin := origin, day := s.order.clockDay, ms := s.order.clockMs, head := head }
            tideReplaced := s.line.tideReplaced } } := by
  have silent : sendingTide (frameArrives s) = false := sendingTide_of_receiving (s := s) receives
  simp only [makeTideEvent, silent, Bool.false_or, latchAtEvent]
  simp only [frameArrives_eq, State.withTide, State.withLine]

/-! ### TIDE frames (O18) -/

theorem effect_tideFrame {source : Byte} {payload : List Byte} {r : TideRecord} {s : State} (receives : receiving s = true)
    (valid : source.toNat ≤ 23) (decodes : tideOfPayload payload = some r) :
    effect (.tideFrame source payload) s = takeTideFrame source.toNat r (frameArrives s) := by
  simp only [effect, decodes]
  exact arrival_of_receiving _ receives valid

/-- A TIDE frame by the blindness of the station, the freshness of the row and the window (R26). -/
theorem takeTideFrame_eq (source : Nat) (r : TideRecord) (s : State) :
    takeTideFrame source r s =
      if s.tide.blind = true ∧ rowFresh source s = true then
        (if s.tide.window = .undecided then setWindow (windowOf r.kind) s
         else if s.tide.window = windowOf r.kind then s else makeTideEvent r.kind .peer none s)
      else s := by
  unfold takeTideFrame
  simp only [Bool.and_eq_true]
  cases s.tide.window <;> rfl

/-- Settles O18: with the station blind and the row FRESH, by the window; else the frame is ignored. -/
theorem blindStationTakesPeerTide : Obligations.BlindStationTakesPeerTide := by
  intro source payload r s receives valid decodes
  have takes := effect_tideFrame receives valid decodes
  rw [takeTideFrame_eq] at takes
  change effect _ s = if s.tide.blind = true ∧ rowFresh source.toNat s = true then
    (if s.tide.window = .undecided then setWindow (windowOf r.kind) (frameArrives s)
     else if s.tide.window = windowOf r.kind then frameArrives s else makeTideEvent r.kind .peer none (frameArrives s))
    else frameArrives s at takes
  refine ⟨fun ignored => exec_onlyHeard ?_, fun blind fresh undecided => ?_, fun blind fresh decided other => ?_⟩
  · rw [takes]
    split
    · next taken =>
      have same : s.tide.window = windowOf r.kind := by simpa [taken] using ignored
      rw [if_neg (by rw [same]; cases r.kind <;> simp [windowOf]), if_pos same]
    · rfl
  · rw [if_pos ⟨blind, fresh⟩, if_pos undecided, frameArrives_eq] at takes
    exact exec_of_effect takes
  · rw [if_pos ⟨blind, fresh⟩, if_neg decided, if_neg other] at takes
    rw [makeTideEvent_heard _ _ _ receives] at takes
    exact exec_of_effect takes

/-! ### Ageing (O19) -/

/-- Settles O19: the rows are aged one by one. -/
theorem ageingStepSetsFreshness : Obligations.AgeingStepSetsFreshness := by
  intro s b img serving moment
  have ages : effect .peerAgeing s = ageRows (nextAgeing b) := by
    rw [effect_of_accepted serving.1 rfl, moment]
    rfl
  obtain ⟨t, run, frame, reported⟩ := exec_of_effect ages
  have rows : t.peers.rows = s.peers.rows.map ageRow := by
    rw [frame]
    change b.peers.rows.map ageRow = _
    rw [moment, elapse_rows]
  refine ⟨t, run, by rw [rows, List.length_map], fun n age row => ?_, fun n age r row => ?_, ?_, reported⟩
  · rw [rows, List.getElem?_map, row]
    rfl
  · rw [rows, List.getElem?_map, row, Option.map_some, ageRow_filled, countTo_min]
    rfl
  · rw [frame]
    rfl

/-! ### STATE frames (O20, O21) -/

theorem effect_stateFrame {source : Byte} {payload : List Byte} {f : StateFrame} {s : State} (receives : receiving s = true)
    (valid : source.toNat ≤ 23) (decodes : stateOfPayload payload = some f) :
    effect (.stateFrame source payload) s = takeStateFrame source.toNat f (frameArrives s) := by
  simp only [effect, decodes]
  exact arrival_of_receiving _ receives valid

theorem takeStateFrame_of_none {source : Nat} {f : StateFrame} {s : State} (rejected : acceptedImage s = none) :
    takeStateFrame source f s = s := by simp [takeStateFrame, rejected]

theorem takeStateFrame_of_own {source : Nat} {f : StateFrame} {s : State} {img : Image} (accepted : acceptedImage s = some img)
    (own : source = s.loader.strap) : takeStateFrame source f s = raiseDuplicate s := by simp [takeStateFrame, accepted, own]

theorem takeStateFrame_of_unconfigured {source : Nat} {f : StateFrame} {s : State} {img : Image} (accepted : acceptedImage s = some img)
    (other : source ≠ s.loader.strap) (absent : 15 < source ∨ (layoutAt img.layout source).present = false) :
    takeStateFrame source f s = countError s := by
  simp only [takeStateFrame, accepted, if_neg other]
  refine if_neg fun ⟨station, configured⟩ => ?_
  rcases absent with console | absent
  · omega
  · simp [rowConfigured, absent] at configured

theorem takeStateFrame_of_configured {source : Nat} {f : StateFrame} {s : State} {img : Image} (accepted : acceptedImage s = some img)
    (station : source ≤ 15) (configured : rowConfigured img source s = true) :
    takeStateFrame source f s = takeEcho img (echoOf f) (refreshRow source f s) := by
  have other : source ≠ s.loader.strap := by
    simp only [rowConfigured, Bool.and_eq_true, bne_iff_ne] at configured
    exact configured.1
  simp only [takeStateFrame, accepted, if_neg other]
  exact if_pos ⟨station, configured⟩

/-- Settles O20: discarded after a rejected image, counted from outside the layout, else the row is refreshed. -/
theorem stateFrameRefreshesRow : Obligations.StateFrameRefreshesRow := by
  intro source payload f s receives valid decodes
  have takes := effect_stateFrame receives valid decodes
  refine ⟨fun rejected => exec_onlyHeard ?_, fun img accepted other => ⟨fun absent => exec_heardAndCounted ?_, fun station present zero => ?_⟩⟩
  · rw [takes, takeStateFrame_of_none (s := frameArrives s) rejected]
  · rw [takes, takeStateFrame_of_unconfigured (s := frameArrives s) accepted other absent]
  · have configured : rowConfigured img source.toNat (frameArrives s) = true := by
      have different : (source.toNat != s.loader.strap) = true := bne_iff_ne.mpr other
      simp [rowConfigured, present, different]
    rw [takeStateFrame_of_configured (s := frameArrives s) accepted station configured] at takes
    have noEcho : takeEcho img (echoOf f) (refreshRow source.toNat f (frameArrives s)) = refreshRow source.toNat f (frameArrives s) :=
      if_pos zero
    rw [noEcho, refreshRow, frameArrives_eq] at takes
    simp only [State.withPeers, rowOf, clampNat] at takes
    exact exec_of_effect takes

/-- Settles O21: the station's own number raises DUPLICATE. -/
theorem ownNumberInStateFrameStops : Obligations.OwnNumberInStateFrameStops := by
  intro source payload f s img accepted receives valid own decodes serves free subset
  have raises := effect_stateFrame receives valid decodes
  rw [takeStateFrame_of_own (s := frameArrives s) accepted own, raiseDuplicate] at raises
  have inactive : hasFault .duplicate s.modeCtl.active = false := stopClass_inactive rfl free subset
  have unlatched := hasStopClass_eq_false.mp free .duplicate rfl
  obtain ⟨t, run, stands, frame, latched, active, -⟩ := exec_raises_stop raises rfl serves (by simp [condition, frameArrives_eq, inactive]) unlatched
  refine ⟨t, run, stands, ?_, latched, ?_⟩
  · simp [condition, active]
  · rw [frame]
    rfl

/-! ### Frames at fault (O23) -/

/-- Settles O23: each fault leaves the line as R174 has it and counts once. -/
theorem faultyFrameIsCountedOnce : Obligations.FaultyFrameIsCountedOnce := by
  intro what s receives faulty
  have drops : effect (.frameDropped what) s =
      s.withLine
        { s.line with
          idle := what == .cutOff, awaitIdle := what != .cutOff, dominantRun := if what = .stopBitDominant then some 0 else none
          errors := min 255 (s.line.errors + 1) } := by
    simp only [effect, receives, if_true]
    cases what with
    | stopBitDominant => exact countError_eq _
    | cutOff => exact countError_eq _
    | lengthOver => exact countError_eq _
    | arrived bytes => exact (if_pos (faulty bytes rfl)).trans (countError_eq _)
  obtain ⟨t, run, frame, reported⟩ := exec_of_effect drops
  have errors : t.line.errors = min 255 (s.line.errors + 1) := by rw [reported]; rfl
  have awaits : t.line.awaitIdle = (what != .cutOff) := by rw [reported]; rfl
  have idle : t.line.idle = (what == .cutOff) := by rw [reported]; rfl
  refine ⟨t, run, errors, by rw [reported]; rfl, awaits, idle, frame, ?_⟩
  rw [errors, awaits, idle]
  exact reported

end Sys2Proof.Proofs
end

section
/-! SUPPORT. Commands from their arrival to their answer (O29, O30, O32, O33, O35, O36). -/

namespace Sys2Proof.Proofs

open Sys2Proof.Machine Sys2Proof.Safety

/-- An event that ends in an answer, after `u`. -/
theorem exec_answers {i : Instr} {source tag : Byte} {code : Nat} {result : CommandResult} {s u : State}
    (h : effect i s = answer source.toNat tag.toNat code result u) :
    ∃ t, exec i s = .next t ∧ Answered source tag code result t ∧
      t = { u with order := answeredOrder u.order source tag code result, line := t.line } ∧ Reported u.line t.line := by
  refine ⟨_, exec_eq_effect i s, ?_⟩
  rw [h]
  exact ⟨answered_concludeEvent .., concludeEvent_answer_frame .., concludeEvent_answer_reported ..⟩

/-- A command that is carried out, with what it makes of the station after the arrival (R62, R63). -/
theorem exec_command {i : Instr} {source target tag : Byte} {code level : Nat} {act : State → State × CommandResult} {img : Image}
    {result : CommandResult} {s u : State} (form : effect i s = command source target tag code level act s)
    (reaches : CommandReaches s source target) (accepted : acceptedImage s = some img) (allowed : level ≤ authorityOf img source.toNat)
    (acts : act (frameArrives s) = (u, result)) :
    ∃ t, exec i s = .next t ∧ Answered source tag code result t ∧
      t = { u with order := answeredOrder u.order source tag code result, line := t.line } ∧ Reported u.line t.line := by
  rw [command_carried_out act reaches accepted allowed, acts] at form
  exact exec_answers form

/-- A command that is refused for the state of the station changes nothing (R63). -/
theorem exec_command_refused {i : Instr} {source target tag : Byte} {code level : Nat} {act : State → State × CommandResult} {img : Image}
    {result : CommandResult} {s : State} (form : effect i s = command source target tag code level act s)
    (reaches : CommandReaches s source target) (accepted : acceptedImage s = some img) (allowed : level ≤ authorityOf img source.toNat)
    (acts : act (frameArrives s) = (frameArrives s, result)) :
    ∃ t, exec i s = .next t ∧ Answered source tag code result t ∧
      t = { s with
            order := answeredOrder s.order source tag code result, modeCtl := heardModes s.modeCtl, line := t.line } ∧
      Reported (heardLine s.line) t.line := by
  rw [frameArrives_eq] at acts
  exact exec_command form reaches accepted allowed acts

/-! ### The checks of a command (O29, O36) -/

/-- The seven commands share their arrival, their address and their authority (R62). -/
theorem effect_of_command {i : Instr} {c : CommandFields} (h : commandOf i = some c) :
    ∃ f, effect i = fun s => arrival c.source
      (addressed c.source.toNat c.target.toNat (authorised c.source.toNat c.tag.toNat c.code c.level f)) s := by
  cases i <;> simp only [commandOf, reduceCtorEq, Option.some.injEq] at h
  all_goals (subst h; exact ⟨_, rfl⟩)

/-- Settles O29: counted from a station, ignored for another, refused without the authority. -/
theorem commandsAreCheckedFirst : Obligations.CommandsAreCheckedFirst := by
  intro i c s isCommand receives valid
  obtain ⟨f, form⟩ := effect_of_command isCommand
  have arrives : effect i s =
      addressed c.source.toNat c.target.toNat (authorised c.source.toNat c.tag.toNat c.code c.level f) (frameArrives s) := by
    rw [form]
    exact arrival_of_receiving _ receives valid
  refine ⟨fun station => exec_heardAndCounted ?_, fun console notAll notOwn => exec_onlyHeard ?_, fun console own refused => ?_⟩
  · rw [arrives, addressed_of_station _ _ station]
  · rw [arrives, addressed_of_other _ (frameArrives s) console notAll notOwn]
  · have refuses : effect i s = answer c.source.toNat c.tag.toNat c.code .refusedAuthority (frameArrives s) := by
      rw [arrives, addressed_of_own _ (frameArrives s) console own]
      rcases refused with rejected | ⟨img, accepted, low⟩
      · exact authorised_of_none _ (s := frameArrives s) rejected
      · exact authorised_of_low _ (s := frameArrives s) accepted low
    rw [frameArrives_eq] at refuses
    exact exec_answers refuses

/-- Settles O36: a code that is none of the seven asks for no authority. -/
theorem unknownCommandIsAnswered : Obligations.UnknownCommandIsAnswered := by
  intro source target code argument tag s receives valid unknown
  have arrives : effect (.unknownCommand source target code argument tag) s =
      addressed source.toNat target.toNat (answer source.toNat tag.toNat code.toNat .unknown) (frameArrives s) := by
    have none : isCommandCode code.toNat = false := by
      simp only [isCommandCode, Bool.and_eq_false_iff, decide_eq_false_iff_not]
      omega
    simp only [effect, none, Bool.false_eq_true, if_false]
    exact arrival_of_receiving _ receives valid
  refine ⟨fun station => exec_heardAndCounted ?_, fun console notAll notOwn => exec_onlyHeard ?_, fun ⟨_, console, _, own⟩ => ?_⟩
  · rw [arrives, addressed_of_station _ _ station]
  · rw [arrives, addressed_of_other _ (frameArrives s) console notAll notOwn]
  · rw [addressed_of_own _ (frameArrives s) console own, frameArrives_eq] at arrives
    exact exec_answers arrives

/-! ### TIDE_EVENT (O32) -/

theorem tideKindOfCode_eq_none {n : Nat} (notOpen : n ≠ 1) (notClose : n ≠ 2) : tideKindOfCode n = none := by
  match n with
  | 0 => rfl
  | 1 => exact absurd rfl notOpen
  | 2 => exact absurd rfl notClose
  | n + 3 => rfl

/-- Settles O32: by the kind that the argument names and the window. -/
theorem tideEventCommandMovesWindow : Obligations.TideEventCommandMovesWindow := by
  intro source target argument tag s img reaches accepted allowed
  refine ⟨fun notOpen notClose => ?_, fun k names => ?_⟩
  · refine exec_command_refused rfl reaches accepted allowed ?_
    simp only [doTideEvent, tideKindOfCode_eq_none notOpen notClose]
  · have kind : tideKindOfCode argument.toNat = some k := by
      rcases names with ⟨code, rfl⟩ | ⟨code, rfl⟩ <;> rw [code] <;> rfl
    refine ⟨fun stands => ?_, fun moves => ?_⟩
    · refine exec_command_refused rfl reaches accepted allowed ?_
      simp only [doTideEvent, kind]
      exact if_pos stands
    · have acts : doTideEvent argument.toNat (frameArrives s) = (makeTideEvent k .manual s.level.head (frameArrives s), .done) := by
        simp only [doTideEvent, kind]
        exact if_neg moves
      rw [makeTideEvent_heard _ _ _ reaches.1] at acts
      exact exec_command rfl reaches accepted allowed acts

/-! ### ABANDON and CLEAR_COUNTS (O33, O35) -/

/-- Settles O33: by the mode, the plan and the deferred action. -/
theorem abandonEndsPlan : Obligations.AbandonEndsPlan := by
  intro source target argument tag s img reaches accepted allowed
  refine ⟨fun refused => exec_command_refused rfl reaches accepted allowed ?_, fun notStorm dead deferred => ?_, fun notStorm live => ?_⟩
  · unfold doAbandon
    rcases refused with storm | ⟨dead, none⟩
    · exact if_pos storm
    · split
      · rfl
      · exact (if_neg dead).trans (if_neg (by simp [frameArrives_eq, none]))
  · have acts : doAbandon (frameArrives s) = (clearDeferred (frameArrives s), .done) :=
      (if_neg notStorm).trans ((if_neg dead).trans (if_pos deferred))
    rw [frameArrives_eq] at acts
    exact exec_command rfl reaches accepted allowed acts
  · have acts : doAbandon (frameArrives s) = (clearDeferred (abandonSave (endPlan .idle (frameArrives s))), .done) := by
      have ends : abandonPlan (frameArrives s) = endPlan .idle (frameArrives s) := if_pos live
      rw [← ends]
      exact (if_neg notStorm).trans (if_pos live)
    have saves (m : ModeCtl) (u : State) (modes : u.modeCtl = m) :
        abandonSave u = u.withModeCtl { m with save := if m.mode = .fault then m.save.map abandonSaved else m.save } := by
      subst modes
      unfold abandonSave
      split <;> rfl
    rw [saves (heardModes s.modeCtl) _ rfl, frameArrives_eq] at acts
    exact exec_command rfl reaches accepted allowed acts

/-- Settles O35. -/
theorem clearCountsZeroesCounter : Obligations.ClearCountsZeroesCounter := by
  intro source target argument tag s img reaches accepted allowed
  have acts : doClearCounts (frameArrives s) = ((frameArrives s).withLine { heardLine s.line with errors := 0 }, .done) := rfl
  rw [frameArrives_eq] at acts
  exact exec_command rfl reaches accepted allowed acts

/-! ### RESUME (O30) -/

theorem takeStep_of_queue {s : State} {img : Image} {i : Nat} {rest : List Nat} (accepted : acceptedImage s = some img)
    (running : s.plan.state = .running) (free : s.plan.current = none) (noHalt : haltInForce s = false) (queue : s.plan.queue = i :: rest) :
    takeStep s = refill (beginStep img i rest s) := by
  simp only [takeStep, accepted, running, free, noHalt, queue, and_self, if_true]

theorem takeStep_of_ended {s : State} {img : Image} (accepted : acceptedImage s = some img)
    (running : s.plan.state = .running) (free : s.plan.current = none) (noHalt : haltInForce s = false) (queue : s.plan.queue = [])
    (ended : s.plan.interp.ended = true) : takeStep s = endPlan .ended s := by
  simp only [takeStep, accepted, running, free, noHalt, queue, ended, and_self, if_true]

theorem refill_of_some {s : State} {img : Image} {p : Plan} (accepted : acceptedImage s = some img) (running : s.plan.state = .running)
    (fills : refillLoop img refillFuel s.plan = some p) : refill s = s.withPlan p := (refill_cases accepted running).1 p fills

/-- The take of a step whose refill succeeds (R132, R133). -/
theorem takeStep_begins {s : State} {img : Image} {i : Nat} {rest : List Nat} {q : Plan} (accepted : acceptedImage s = some img)
    (running : s.plan.state = .running) (free : s.plan.current = none) (noHalt : haltInForce s = false) (queue : s.plan.queue = i :: rest)
    (refills : refillLoop img refillFuel (planBegun img i rest s.plan) = some q) :
    takeStep s = { s with plan := q, target := { s.target with stepStart := startNow s } } := by
  rw [takeStep_of_queue accepted running free noHalt queue, refill_of_some (s := beginStep img i rest s) accepted running refills]
  rfl

section
variable {s : State} {img : Image} (accepted : acceptedImage s = some img) (held : s.plan.state = .held) (auto : s.modeCtl.mode = .auto)
include accepted held auto

theorem doResume_current {p : Plan} (resume : s.plan.resume = some .current)
    (fills : refillLoop img refillFuel { s.plan with state := .running, resume := none, aimJudged := false } = some p) :
    doResume s = (s.withPlan p, .done) := by
  have resumes : resumePlan s = refill (s.withPlan { s.plan with state := .running, resume := none, aimJudged := false }) := by
    simp only [resumePlan, resume]
  have refilled : refill (s.withPlan { s.plan with state := .running, resume := none, aimJudged := false }) = s.withPlan p :=
    refill_of_some (s := s.withPlan { s.plan with state := .running, resume := none, aimJudged := false }) accepted rfl fills
  rw [doResume, if_pos ⟨held, auto⟩, resumes, refilled]

/-- At NEXT the held step ends, and what is left is a take (R141). -/
theorem doResume_next {p : Plan} (resume : s.plan.resume = some .next)
    (fills : refillLoop img refillFuel { s.plan with state := .running, resume := none, current := none } = some p) :
    doResume s = (takeStep (s.withPlan p), .done) ∧ p.state = .running ∧ p.current = none := by
  have resumes : resumePlan s = takeStep (refill (s.withPlan { s.plan with state := .running, resume := none, current := none })) := by
    simp only [resumePlan, resume]
  have refilled : refill (s.withPlan { s.plan with state := .running, resume := none, current := none }) = s.withPlan p :=
    refill_of_some (s := s.withPlan { s.plan with state := .running, resume := none, current := none }) accepted rfl fills
  refine ⟨?_, ?_⟩
  · rw [doResume, if_pos ⟨held, auto⟩, resumes, refilled]
  · rw [refillLoop_frame _ fills]
    exact ⟨rfl, rfl⟩

end

/-- Settles O30: at CURRENT one refill, at NEXT a refill and a take. -/
theorem resumeContinuesHeldPlan : Obligations.ResumeContinuesHeldPlan := by
  intro source target argument tag s img reaches accepted allowed
  refine ⟨fun refused => ?_, fun held auto => ⟨fun p resume fills => ?_, fun p resume halt fills => ?_,
    fun p q i rest resume noHalt fills queue refills => ?_, fun p resume noHalt fills queue ended => ?_⟩⟩
  · exact exec_command_refused rfl reaches accepted allowed (if_neg fun resumes => refused.elim (· resumes.1) (· resumes.2))
  · have acts := doResume_current (s := frameArrives s) accepted held auto resume fills
    rw [frameArrives_eq] at acts
    exact exec_command rfl reaches accepted allowed acts
  · obtain ⟨acts, -⟩ := doResume_next (s := frameArrives s) accepted held auto resume fills
    rw [takeStep_none (s := (frameArrives s).withPlan p) (.inr (.inr halt)), frameArrives_eq] at acts
    exact exec_command rfl reaches accepted allowed acts
  · obtain ⟨acts, running, free⟩ := doResume_next (s := frameArrives s) accepted held auto resume fills
    rw [takeStep_begins (s := (frameArrives s).withPlan p) accepted running free noHalt queue refills, frameArrives_eq] at acts
    exact exec_command rfl reaches accepted allowed acts
  · obtain ⟨acts, running, free⟩ := doResume_next (s := frameArrives s) accepted held auto resume fills
    rw [takeStep_of_ended (s := (frameArrives s).withPlan p) accepted running free noHalt queue ended, frameArrives_eq] at acts
    exact exec_command rfl reaches accepted allowed acts

end Sys2Proof.Proofs
end

section
/-! SUPPORT. The end of an event: the mark, and the report that is built (O37). -/

namespace Sys2Proof.Proofs

open Sys2Proof.Machine Sys2Proof.Safety

/-! ### What a report carries -/

/-- A plan number, plan or step that is absent is carried as 255. -/
theorem optTo255_eq (x : Option Nat) : optTo255 x = x.getD 255 := by cases x <;> rfl

theorem carriesState_buildState (b : State) : CarriesState (buildState b) b := by
  refine ⟨⟨rfl, ?_, ?_⟩, ⟨rfl, rfl, ?_⟩, ⟨rfl, ?_, ?_⟩, ⟨rfl, rfl⟩, ⟨rfl, rfl, rfl, rfl, rfl⟩, ⟨rfl, rfl, ?_, ?_⟩, ⟨rfl, rfl, rfl⟩, ?_, ?_,
    ⟨?_, rfl, rfl⟩, ?_, ?_, ?_, ?_, ?_⟩
  · simp [buildState]
  · simp [buildState, stormDemand, or_assoc]
  · simp [buildState]
  · simp [buildState, optTo255_eq]
  · simp [buildState, optTo255_eq]
  · simp [buildState]
  · simp [buildState]
  · intro o adopted
    simp [buildState, adopted, optTo255_eq]
    cases o.kind <;> rfl
  · intro none
    simp [buildState, none]
  · cases accepted : acceptedImage b <;> simp [buildState, reportPeriod, accepted, Config.rejectedPeriodMs]
  · intro r first
    simp [buildState, first]
  · intro none
    simp [buildState, none]
  · intro c last
    simp [buildState, last]
    cases c.result <;> rfl
  · intro none
    simp [buildState, none]
  · cases cause : b.line.causeToCarry with
    | none => simp [buildState, cause, causeCode]
    | some c => cases c <;> simp [buildState, cause, causeCode]

/-- Of the line a report reads the error counter and the cause alone. -/
theorem buildState_withLine (s : State) (l : Line) (errors : l.errors = s.line.errors) (cause : l.causeToCarry = s.line.causeToCarry) :
    buildState (s.withLine l) = buildState s := by
  simp only [buildState, State.withLine_line, errors, cause]
  rfl

theorem carriesState_withLine {f : StateFrame} {s : State} {l : Line} (h : CarriesState f s) (errors : l.errors = s.line.errors)
    (cause : l.causeToCarry = s.line.causeToCarry) : CarriesState f (s.withLine l) := by
  unfold CarriesState
  rw [State.withLine_line, errors, cause]
  exact h

/-! ### The mark and the report -/

theorem markChanges_of_same {s t : State} (same : reportedChange s t = false) : markChanges s t = t := by
  simp only [markChanges, same, Bool.and_false, Bool.or_false]
  rfl

/-- An event that changes nothing of what R43 lists. -/
theorem reportedChange_of_same {s t : State} (grant : t.grant.moveState = s.grant.moveState) (mode : t.modeCtl.mode = s.modeCtl.mode)
    (latched : t.modeCtl.latched = s.modeCtl.latched) (state : t.plan.state = s.plan.state) (current : t.plan.current = s.plan.current)
    (window : t.tide.window = s.tide.window) : reportedChange s t = false := by
  simp [reportedChange, grant, mode, latched, state, current, window]

theorem reportedChange_elapse (dt : Nat) (s : State) : reportedChange s (elapse dt s) = false := by
  refine reportedChange_of_same ?_ ?_ ?_ ?_ ?_ ?_ <;> (unfold elapse; split <;> rfl)

theorem reportedChange_iff {s t : State} : reportedChange s t = true ↔ ReportedChange s t := by
  simp [reportedChange, ReportedChange, or_assoc]

/-- A mark that stands at the end of an event waits, or has been served with the state of that moment. -/
theorem markedOrReported_serveReports {s : State} (marked : s.line.mark = true) : MarkedOrReported (serveReports s) := by
  unfold serveReports
  split
  · exact .inr ⟨buildState s, rfl, carriesState_withLine (carriesState_buildState s) rfl rfl⟩
  · exact .inl marked

theorem markedOrReported_of_mark {s t : State} (marked : t.line.mark = true) : MarkedOrReported (concludeEvent s t) :=
  markedOrReported_serveReports (by simp [markChanges, marked])

theorem markedOrReported_of_change {s t : State} (works : lineWorks t = true) (changes : reportedChange s t = true) :
    MarkedOrReported (concludeEvent s t) :=
  markedOrReported_serveReports (by simp [markChanges, works, changes])

/-- An event that changes nothing of what R43 lists ends with the reports that are due alone. -/
theorem concludeEvent_of_same {s t : State} (same : reportedChange s t = false) : concludeEvent s t = serveReports t := by
  rw [concludeEvent, markChanges_of_same same]

theorem serveReports_of_due {s : State} (due : reportDue s = true) :
    serveReports s =
      { s with
        line :=
          { s.line with
            stateSlot := some (buildState s)
            mark := if 50 ≤ s.line.gapTimer then false else s.line.mark
            periodicDue := false
            txTimer := if s.line.stateSlot = none then some 0 else s.line.txTimer
            txExpired := if s.line.stateSlot = none then false else s.line.txExpired } } := by
  have placed : serveReports s = s.withLine (placeState s).line := if_pos due
  rw [placed, placeState_line]
  simp only [gapOver, decide_eq_true_eq, Option.isNone_iff_eq_none]
  rfl

theorem serveReports_of_not_due {s : State} (notDue : reportDue s = false) : serveReports s = s := if_neg (by simp [notDue])

/-! ### The report timer and the gap (O37) -/

theorem sending_elapse (dt : Nat) (s : State) : (elapse dt s).line.sending = s.line.sending := by
  cases counts : s.loader.inReset with
  | true => rw [elapse_of_reset counts]
  | false => rw [elapse_line counts, takeChanges_eq]

theorem sendingState_congr {s t : State} (h : t.line.sending = s.line.sending) : sendingState t = sendingState s := by
  simp only [sendingState, h]

theorem inReset_of_lineWorks {s : State} (works : lineWorks s = true) : s.loader.inReset = false := by
  simp only [lineWorks, Bool.and_eq_true, Bool.not_eq_true'] at works
  exact works.1

/-- Time runs on over mark and due report. -/
theorem elapse_marks (dt : Nat) (s : State) :
    (elapse dt s).line.mark = s.line.mark ∧ (elapse dt s).line.periodicDue = s.line.periodicDue := by
  cases counts : s.loader.inReset with
  | true => rw [elapse_of_reset counts]; exact ⟨rfl, rfl⟩
  | false => rw [elapse_line counts, takeChanges_eq]; exact ⟨rfl, rfl⟩

theorem gapTimer_elapse {dt : Nat} {s : State} (counts : s.loader.inReset = false) : (elapse dt s).line.gapTimer = s.line.gapTimer + dt := by
  rw [elapse_line counts]

/-- The report timer's row ends with the report, or with the report due while the own STATE is on the line (R42). -/
theorem exec_periodicReport {s b : State} {age : Nat} (works : lineWorks s = true) (timer : s.line.reportTimer = some age)
    (fires : s.line.reportFired = false) (moment : b = elapse (reportPeriod s - age) s) :
    exec .periodicReport s = .next (serveReports (b.withLine { b.line with reportFired := true, periodicDue := true })) := by
  have effects : effect .periodicReport s = b.withLine { b.line with reportFired := true, periodicDue := true } := by
    simp only [effect]
    rw [whileLineWorks_of_true _ works, moment]
    simp only [reachPeriod, timer, fires, Bool.false_eq_true, if_false, runOn]
  rw [exec_eq_effect, effects, concludeEvent_of_same]
  rw [moment]
  exact reportedChange_elapse _ s

/-- Settles O37: by the timer's row and by the end of the gap; the changes by the mark that every event ends with. -/
theorem dueReportsAreBuilt : Obligations.DueReportsAreBuilt := by
  refine ⟨carriesState_buildState, fun i s t run works changes => ?_, fun s b works => ⟨fun age timer fires moment => ?_, fun gap notDue moment => ?_⟩⟩
  · rw [exec_eq_next run] at works changes ⊢
    refine markedOrReported_of_change (by rwa [lineWorks_congr (concludeEvent_loader s (effect i s))] at works) (reportedChange_iff.mpr ?_)
    simpa [ReportedChange] using changes
  · have run := exec_periodicReport works timer fires moment
    have worksLater : lineWorks (b.withLine { b.line with reportFired := true, periodicDue := true }) = true := by
      rw [moment]
      exact (lineWorks_elapse _ s).trans works
    have sending : sendingState (b.withLine { b.line with reportFired := true, periodicDue := true }) = sendingState s := by
      rw [moment]
      exact sendingState_congr (sending_elapse _ s)
    refine ⟨fun free => ⟨_, run, ?_⟩, fun busy => ⟨_, run, ?_⟩⟩
    · rw [serveReports_of_due (by simp [reportDue, worksLater, sending, free]), buildState_withLine]
      · rfl
      · rfl
      · rfl
    · rw [serveReports_of_not_due (by simp [reportDue, sending, busy])]
      rfl
  · have effects : effect .gapEnd s = b := by
      rw [moment]
      exact whileLineWorks_of_true _ works
    have run : exec .gapEnd s = .next (serveReports b) := by
      rw [exec_eq_effect, effects, concludeEvent_of_same]
      rw [moment]
      exact reportedChange_elapse _ s
    obtain ⟨mark, periodic⟩ := elapse_marks (50 - s.line.gapTimer) s
    rw [← moment] at mark periodic
    have gapEnds : b.line.gapTimer = 50 := by
      rw [moment, gapTimer_elapse (inReset_of_lineWorks works)]
      omega
    have worksLater : lineWorks b = true := by rw [moment, lineWorks_elapse, works]
    have sending : sendingState b = sendingState s := by rw [moment, sendingState_congr (sending_elapse _ s)]
    refine ⟨fun marked free => ⟨_, run, ?_⟩, fun unmarked => ⟨_, run, ?_⟩⟩
    · have due : reportDue b = true := by simp [reportDue, worksLater, sending, free, mark, marked, gapOver, gapEnds, Config.gapMs]
      rw [serveReports_of_due due, if_pos gapEnds.ge]
      simp only [periodic.trans notDue]
    · exact serveReports_of_not_due (by simp [reportDue, mark, unmarked, periodic, notDue])

end Sys2Proof.Proofs
end

section
/-! SUPPORT. Orders from their frame or their echo to the adoption (O24 to O28). -/

namespace Sys2Proof.Proofs

open Sys2Proof.Machine Sys2Proof.Safety

/-- States that agree in every block are one. -/
theorem state_ext {a b : State} (loader : a.loader = b.loader) (position : a.position = b.position) (level : a.level = b.level)
    (tide : a.tide = b.tide) (peers : a.peers = b.peers) (order : a.order = b.order) (target : a.target = b.target)
    (grant : a.grant = b.grant) (drive : a.drive = b.drive) (plan : a.plan = b.plan) (modeCtl : a.modeCtl = b.modeCtl)
    (line : a.line = b.line) (clocks : a.clocks = b.clocks) (pending : a.pending = b.pending) : a = b := by
  cases a
  cases b
  simp_all

theorem setConditions_order (order input level : Bool) (s : State) : (setConditions order input level s).order = s.order := by
  rw [setConditions_eq]
  unfold serveStorm
  split
  · exact (enterMode_storm _).2.2.1
  · rfl

/-- An adoption puts the order in its place and may make its plan action pending (R56, R58). -/
theorem adopt_order (o : Order) (s : State) :
    (adopt o s).order = { s.order with adopted := some o, deferred := (adopt o s).order.deferred } := by
  simp only [adopt]
  rw [setConditions_order, haltAtAdoption_order]
  unfold planActionAtAdoption
  split
  · rw [takePlanAction_order]; rfl
  · rfl

/-- An adoption sets the mark (R43). -/
theorem adopt_line (o : Order) (s : State) : (adopt o s).line = { s.line with mark := true } := by simp [adopt]

/-- What an adoption makes of the station does not depend on what it leaves alone and does not read. -/
theorem adoptionActs_before {img : Image} {o : Order} {b b' t : State} (h : AdoptionActs img o b' t) (loader : b'.loader = b.loader)
    (position : b'.position = b.position) (tide : b'.tide = b.tide) (adopted : b'.order.adopted = b.order.adopted)
    (deferred : b'.order.deferred = b.order.deferred) (target : b'.target = b.target) (grant : b'.grant = b.grant)
    (drive : b'.drive = b.drive) (plan : b'.plan = b.plan) (modes : b'.modeCtl = { b.modeCtl with active := b'.modeCtl.active })
    (planBad : condition .planBad b' = condition .planBad b) : AdoptionActs img o b t := by
  have halt : haltInForce b' = haltInForce b := haltInForce_congr adopted loader
  have demand : stormDemand b' = stormDemand b := by simp only [stormDemand]; rw [modes]
  have nulls (d : Side) : nullCode d b' = nullCode d b := nullCode_congr d loader
  have mode : b'.modeCtl.mode = b.modeCtl.mode := by rw [modes]
  have condInput : b'.modeCtl.condInput = b.modeCtl.condInput := by rw [modes]
  have condLevel : b'.modeCtl.condLevel = b.modeCtl.condLevel := by rw [modes]
  have relay : b'.modeCtl.relay = b.modeCtl.relay := by rw [modes]
  have stormClear : b'.modeCtl.stormClear = b.modeCtl.stormClear := by rw [modes]
  have save : b'.modeCtl.save = b.modeCtl.save := by rw [modes]
  have latched : b'.modeCtl.latched = b.modeCtl.latched := by rw [modes]
  simp only [AdoptionActs, PlanAfterAdoption, PlanAdopted, PlanUntouched, PlanStarted, StepTaken, startNow, PlanBadLatched, ClaimAfterAdoption,
    ClaimBypassed, driveHalted, loader, position, tide, deferred, target, grant, drive, plan, planBad, halt, demand, nulls, mode,
    condInput, condLevel, relay, stormClear, save, latched] at h ⊢
  exact h

/-- What an adoption at the arrival of a frame makes of the station, as the frame found it. -/
theorem adopt_heard {img : Image} {s u : State} (o : Order) (accepted : acceptedImage s = some img)
    (heard : u = { s with order := u.order, modeCtl := heardModes s.modeCtl, line := heardLine s.line })
    (deferred : u.order.deferred = s.order.deferred) :
    AdoptionActs img o { s with order := { s.order with adopted := some o } } (adopt o u) := by
  have still : acceptedImage u = some img := by rw [heard]; exact accepted
  refine adoptionActs_before (adopt_acts o still) ?_ ?_ ?_ rfl deferred ?_ ?_ ?_ ?_ ?_ ?_
  · rw [heard]
  · rw [heard]
  · rw [heard]
  · rw [heard]
  · rw [heard]
  · rw [heard]
  · rw [heard]
  · rw [heard]
  · rw [heard]
    simp [condition]

/-- An event that adopts `o` in the state `u`, which is `b` with the arrival of a frame and whatever that did to the Order Unit. -/
theorem exec_adopts {i : Instr} {s b u : State} {o : Order} {img : Image} (adopts : effect i s = adopt o u)
    (accepted : acceptedImage b = some img) (heard : u = { b with order := u.order, modeCtl := heardModes b.modeCtl, line := heardLine b.line })
    (deferred : u.order.deferred = b.order.deferred) :
    ∃ t, exec i s = .next t ∧ t.order = { u.order with adopted := some o, deferred := t.order.deferred } ∧
      AdoptionActs img o { b with order := { b.order with adopted := some o } } t ∧ MarkedOrReported t ∧
      Reported (heardLine b.line) t.line ∧
      t = { b with
            order := t.order, tide := t.tide, target := t.target, grant := t.grant, drive := t.drive, plan := t.plan
            modeCtl := t.modeCtl, line := t.line } := by
  have acts := adopt_heard o accepted heard deferred
  have marked : (adopt o u).line = { heardLine b.line with mark := true } := by
    rw [adopt_line]
    rw [heard]
  refine ⟨_, exec_eq_effect i s, ?_⟩
  rw [adopts]
  refine ⟨?_, ?_, markedOrReported_of_mark (by rw [marked]), ?_, ?_⟩
  · rw [concludeEvent_order, adopt_order]
  · rw [concludeEvent_eq]
    exact acts
  · have reported := concludeEvent_reported s (adopt o u)
    rw [marked] at reported
    exact reported
  · refine state_ext ?_ ?_ ?_ rfl ?_ rfl rfl rfl rfl rfl rfl rfl ?_ ?_ <;> simp <;> rw [heard]

/-! ### Offers (R54) -/

/-- An order is newer by its number, and at one number by the lower origin (R55). -/
theorem newer_iff {number origin : Nat} {held : Option Order} (counts : 1 ≤ number) :
    newer number origin held = true ↔ ∀ h, held = some h → h.number < number ∨ (h.number = number ∧ origin < h.origin) := by
  cases held with
  | none => simp [newer, counts]
  | some h =>
    simp only [newer, Bool.or_eq_true, Bool.and_eq_true, decide_eq_true_eq, beq_iff_eq, Option.some.injEq, forall_eq']
    rw [eq_comm (a := number)]

theorem offerOrder_of_low {img : Image} {k : OrderKind} {f : OfferedOrder} {time : Option (Nat × Nat)} {s : State}
    (low : authorityOf img f.origin < 2) : offerOrder img k f time s = s := if_pos low

theorem offerOrder_of_old {img : Image} {k : OrderKind} {f : OfferedOrder} {time : Option (Nat × Nat)} {s : State}
    (old : newer f.number f.origin s.order.adopted = false) : offerOrder img k f time s = s := by
  unfold offerOrder
  split
  · rfl
  · rw [if_neg (by simp [old])]

section
variable {img : Image} {k : OrderKind} {f : OfferedOrder} {s : State} (allowed : 2 ≤ authorityOf img f.origin)
  (new : newer f.number f.origin s.order.adopted = true)
include allowed new

theorem offerOrder_of_newer (time : Nat × Nat) : offerOrder img k f (some time) s = adopt (inRange img k f) (setClock time s) := by
  unfold offerOrder
  rw [if_neg (by omega), if_pos new]

/-- An echoed order brings no weir time (R60). -/
theorem offerOrder_of_newer_echo : offerOrder img k f none s = adopt (inRange img k f) s := by
  unfold offerOrder
  rw [if_neg (by omega), if_pos new]

end

/-- An order below the one held, or of the same key, is not newer. -/
theorem newer_of_held {number origin : Nat} {held : Option Order}
    (older : ∃ h, held = some h ∧ (number < h.number ∨ (number = h.number ∧ h.origin ≤ origin))) : newer number origin held = false := by
  obtain ⟨h, rfl, older⟩ := older
  simp only [newer, Bool.or_eq_false_iff, Bool.and_eq_false_iff, decide_eq_false_iff_not, beq_eq_false_iff_ne]
  omega

/-! ### ORDER frames (O24, O25, O28) -/

theorem effect_orderFrame {source : Byte} {p : List Byte} {s : State} (receives : receiving s = true) (whole : p.length = 17)
    (valid : source.toNat ≤ 23) : effect (.orderFrame source p) s = takeOrderFrame source.toNat p (frameArrives s) := by
  exact (if_pos whole).trans (arrival_of_receiving _ receives valid)

section
variable {source : Nat} {p : List Byte} {s : State} {img : Image} (accepted : acceptedImage s = some img)
include accepted

theorem takeOrderFrame_of_station (station : source ≤ 15) : takeOrderFrame source p s = countError s := by
  simp only [takeOrderFrame, accepted, if_pos station]

theorem takeOrderFrame_of_noKind (none : orderKindOfCode (byteAt p 4) = none) : takeOrderFrame source p s = countError s := by
  have noKind : orderKindOfCode (orderOfPayload source p).kindCode = .none := none
  simp only [takeOrderFrame, accepted, noKind, ite_self]

theorem takeOrderFrame_of_zero {k : OrderKind} (console : 16 ≤ source) (kind : orderKindOfCode (byteAt p 4) = some k) (zero : word p 0 = 0) :
    takeOrderFrame source p s = s := by
  have kind' : orderKindOfCode (orderOfPayload source p).kindCode = some k := kind
  have zero' : (orderOfPayload source p).number = 0 := zero
  simp only [takeOrderFrame, accepted, kind', if_pos zero']
  exact if_neg (by omega)

theorem takeOrderFrame_of_offer {k : OrderKind} (console : 16 ≤ source) (kind : orderKindOfCode (byteAt p 4) = some k) (counts : 1 ≤ word p 0) :
    takeOrderFrame source p s = offerOrder img k (orderOfPayload source p) (some (weirTimeOfPayload p)) s := by
  have kind' : orderKindOfCode (orderOfPayload source p).kindCode = some k := kind
  have counts' : ¬ (orderOfPayload source p).number = 0 := Nat.ne_of_gt counts
  simp only [takeOrderFrame, accepted, kind', if_neg counts']
  exact if_neg (by omega)

end

/-- Settles O25: counted, or ignored, before anything of the order is taken. -/
theorem otherOrdersChangeNothing : Obligations.OtherOrdersChangeNothing := by
  intro source p s receives whole valid
  have takes := effect_orderFrame receives whole valid
  refine ⟨fun rejected => exec_onlyHeard ?_, fun img accepted => ⟨fun faulty => exec_heardAndCounted ?_, fun console kind ignored => ?_⟩⟩
  · have none : acceptedImage (frameArrives s) = none := rejected
    simp only [takes, takeOrderFrame, none]
  · rw [takes]
    rcases faulty with station | none
    · exact takeOrderFrame_of_station (s := frameArrives s) accepted station
    · exact takeOrderFrame_of_noKind (s := frameArrives s) accepted none
  · obtain ⟨k, kind⟩ := Option.ne_none_iff_exists'.mp kind
    refine exec_onlyHeard (takes.trans ?_)
    rcases Nat.eq_zero_or_pos (word p 0) with zero | counts
    · exact takeOrderFrame_of_zero (s := frameArrives s) accepted console kind zero
    · rw [takeOrderFrame_of_offer (s := frameArrives s) accepted console kind counts]
      rcases ignored with zero | low | older
      · omega
      · exact offerOrder_of_low low
      · exact offerOrder_of_old (s := frameArrives s) (newer_of_held older)

/-- A weir time of a day is taken, any other leaves the clock (R60). -/
theorem setClock_order (day ms : Nat) (s : State) :
    (setClock (day, ms) s).order =
      { s.order with
        clockDay := if ms < 86400000 then day else s.order.clockDay
        clockMs := if ms < 86400000 then ms else s.order.clockMs } := by
  by_cases valid : ms < 86400000
  · have set : setClock (day, ms) s = s.withOrder { s.order with clockDay := day, clockMs := ms } := if_pos valid
    rw [set, if_pos valid, if_pos valid]
    rfl
  · have stays : setClock (day, ms) s = s := if_neg valid
    rw [stays, if_neg valid, if_neg valid]

/-- Settles O24: the adoption at the arrival, with the clock set. -/
theorem newerOrderIsAdopted : Obligations.NewerOrderIsAdopted := by
  intro source p s b img k o accepted receives whole console valid kind counts allowed new order before
  subst before
  have offered : inRange img k (orderOfPayload source.toNat p) = o := by
    rw [order]
    cases k <;> simp only [inRange, orderOfPayload, clampNat_zero, flagOf] <;> rfl
  have adopts : effect (.orderFrame source p) s = adopt o (setClock (half p 11, word p 13) (frameArrives s)) := by
    rw [effect_orderFrame receives whole valid, takeOrderFrame_of_offer (s := frameArrives s) accepted console kind counts,
      offerOrder_of_newer (s := frameArrives s) allowed ((newer_iff counts).mpr new), offered, weirTimeOfPayload]
  have heard : setClock (half p 11, word p 13) (frameArrives s) =
      { s with
        order := (setClock (half p 11, word p 13) (frameArrives s)).order, modeCtl := heardModes s.modeCtl, line := heardLine s.line } := by
    unfold setClock
    split <;> rfl
  have clock := setClock_order (half p 11) (word p 13) (frameArrives s)
  obtain ⟨t, run, orders, acts, marked, reported, frame⟩ := exec_adopts adopts accepted heard (by rw [clock]; rfl)
  rw [clock] at orders
  refine ⟨t, run, by rw [orders], ?_, by rw [orders]; rfl, acts, marked, reported, frame⟩
  rw [orders]
  dsimp only
  split <;> rfl

/-- HALT that comes into force with an order stops the claim (R59). -/
theorem haltStopsAtAdoption : Obligations.HaltStopsAtAdoption := by
  intro source p s img accepted receives whole console valid kind counts allowed new auto halts applies claims
  obtain ⟨k, kind⟩ := Option.ne_none_iff_exists'.mp kind
  obtain ⟨t, run, adopted, -, -, acts, -, -, frame⟩ :=
    newerOrderIsAdopted source p s _ img k _ accepted receives whole console valid kind counts allowed new rfl rfl
  obtain ⟨-, -, -, -, -, -, -, -, halted, -⟩ := acts
  have halt : ((byteAt p 10).testBit 0 && (BitVec.ofNat 16 (half p 8)).getLsbD s.loader.strap) = true := by rw [halts, applies]; rfl
  obtain ⟨limited, grant, drive⟩ := halted auto halt
  rw [if_neg claims] at grant
  refine ⟨t, run, ?_, by rw [grant], by rw [grant], by rw [grant], by rw [grant], by rw [grant], by rw [grant], limited, fun moves => ?_⟩
  · rw [haltInForce, adopted, show t.loader = s.loader by rw [frame]]
    exact halt
  · rw [if_pos moves] at drive
    rw [drive]
    exact ⟨rfl, rfl, rfl, rfl⟩

/-! ### Echoed orders (O26) -/

/-- The STORM flag is the second of the order's flags (R185). -/
theorem stormFlag_orderFlags : ∀ halt storm tideLock restartPlan : Bool, flagOf (orderFlags halt storm tideLock restartPlan) 1 = storm := by
  decide

/-- Settles O26: the row is refreshed first; the echo is then treated like the order of a frame, without a weir time. -/
theorem echoedOrderIsAdopted : Obligations.EchoedOrderIsAdopted := by
  intro source payload f s b img accepted receives station configured decodes counts before
  have takes : effect (.stateFrame source payload) s = takeEcho img (echoOf f) (frameArrives b) := by
    rw [effect_stateFrame receives (by omega) decodes, takeStateFrame_of_configured (s := frameArrives s) accepted station configured, before]
    rfl
  have numbered : ¬ (echoOf f).number = 0 := Nat.ne_of_gt counts
  have takesKind {k : OrderKind} (kind : orderKindOfCode f.orderKind = some k) :
      takeEcho img (echoOf f) (frameArrives b) =
        if f.orderOrigin < 16 ∨ 23 < f.orderOrigin then countError (frameArrives b) else offerOrder img k (echoOf f) none (frameArrives b) := by
    have kind' : orderKindOfCode (echoOf f).kindCode = some k := kind
    simp only [takeEcho, if_neg numbered, kind']
    rfl
  refine ⟨fun faulty => ?_, fun k kind console valid => ⟨fun ignored => ?_, fun allowed new => ?_⟩⟩
  · have counted : effect (.stateFrame source payload) s = countError (frameArrives b) := by
      rw [takes]
      cases kind : orderKindOfCode f.orderKind with
      | none =>
        have kind' : orderKindOfCode (echoOf f).kindCode = none := kind
        simp only [takeEcho, if_neg numbered, kind']
      | some k =>
        rw [takesKind kind, if_pos (by simpa [kind] using faulty)]
    rw [countError_heard] at counted
    exact exec_of_effect counted
  · have stays : effect (.stateFrame source payload) s = frameArrives b := by
      rw [takes, takesKind kind, if_neg (by omega)]
      rcases ignored with low | older
      · exact offerOrder_of_low low
      · refine offerOrder_of_old (s := frameArrives b) (newer_of_held ?_)
        rw [before]
        exact older
    exact exec_of_effect stays
  · have adopts : effect (.stateFrame source payload) s = adopt (inRange img k (echoOf f)) (frameArrives b) := by
      rw [takes, takesKind kind, if_neg (by omega)]
      refine offerOrder_of_newer_echo (s := frameArrives b) allowed ((newer_iff counts).mpr ?_)
      rw [before]
      exact new
    have still : acceptedImage b = some img := by rw [before]; exact accepted
    obtain ⟨t, run, orders, acts, marked, reported, frame⟩ := exec_adopts adopts still rfl rfl
    have order : (frameArrives b).order = s.order := by rw [before]; rfl
    have line : heardLine b.line = heardLine s.line := by rw [before]
    rw [order] at orders
    refine ⟨t, run, by rw [orders], by rw [orders], by rw [orders], by rw [orders], by rw [frame], ?_, fun o same => ?_, marked, ?_, frame⟩
    · obtain ⟨-, storm, -⟩ := acts
      exact storm.trans (stormFlag_orderFlags ..)
    · rw [same]
      exact acts
    · rw [← line]
      exact reported

/-! ### Convergence (O27) -/

/-- The key of an order (R54). -/
def keyOf (o : Order) : Nat × Nat := (o.number, o.origin)

/-- The key that is held after an offer, by the key held before it (R54, R55). -/
def keyAfter (img : Image) (held : Option (Nat × Nat)) (f : OfferedOrder) : Option (Nat × Nat) :=
  if authorityOf img f.origin < 2 then held
  else
    match held with
    | none => if 1 ≤ f.number then some (f.number, f.origin) else none
    | some (number, origin) => if number < f.number ∨ f.number = number ∧ f.origin < origin then some (f.number, f.origin) else held

theorem key_offerOrder (img : Image) (k : OrderKind) (f : OfferedOrder) (s : State) :
    (offerOrder img k f none s).order.adopted.map keyOf = keyAfter img (s.order.adopted.map keyOf) f := by
  unfold offerOrder keyAfter
  split
  · rfl
  · have adopted : (adopt (inRange img k f) s).order.adopted.map keyOf = some (f.number, f.origin) := by rw [adopt_order]; rfl
    cases held : s.order.adopted with
    | none =>
      by_cases counts : 1 ≤ f.number
      · simpa [newer, counts] using adopted
      · simp [newer, counts, held]
    | some h =>
      by_cases new : h.number < f.number ∨ f.number = h.number ∧ f.origin < h.origin
      · have takes : newer f.number f.origin (some h) = true := by simpa [newer] using new
        simpa [takes, keyOf, new] using adopted
      · have stays : newer f.number f.origin (some h) = false := by simpa [newer] using new
        simp [stays, held, keyOf, new]

/-- Two offers leave the same key in either order: the newer of what was held and of those that may be taken. -/
theorem keyAfter_comm (img : Image) (held : Option (Nat × Nat)) (f g : OfferedOrder) :
    keyAfter img (keyAfter img held f) g = keyAfter img (keyAfter img held g) f := by
  unfold keyAfter
  by_cases noF : authorityOf img f.origin < 2
  · simp only [if_pos noF]
  · by_cases noG : authorityOf img g.origin < 2
    · simp only [if_pos noG]
    · simp only [if_neg noF, if_neg noG]
      rcases held with _ | ⟨number, origin⟩ <;> grind

theorem key_foldl_offers (img : Image) (xs : List (OrderKind × OfferedOrder)) (s : State) :
    (xs.foldl (fun t x => offerOrder img x.1 x.2 none t) s).order.adopted.map keyOf =
      xs.foldl (fun held x => keyAfter img held x.2) (s.order.adopted.map keyOf) := by
  induction xs generalizing s with
  | nil => rfl
  | cons x xs ih => rw [List.foldl_cons, List.foldl_cons, ih, key_offerOrder]

/-- Settles O27: the key held follows the keys offered alone, and two offers commute. -/
theorem sameOrdersGiveSameKey : Obligations.SameOrdersGiveSameKey := by
  intro img xs ys s r _ _ held perm
  have same := key_foldl_offers img xs s
  rw [held, perm.foldl_eq' (fun x _ y _ z => keyAfter_comm img z x.2 y.2), ← key_foldl_offers] at same
  exact same

end Sys2Proof.Proofs
end

section
/-! SUPPORT. The arithmetic of levels, shares and targets (O15, O16, O52, O53). -/

namespace Sys2Proof.Proofs

open Sys2Proof.Machine Sys2Proof.Safety

/-! ### The integer root (O16) -/

/-- The bits from `k` down find the root of what lies below the square of the root so far and the next higher bit. -/
theorem isqrtFrom_spec (k n r : Nat) (below : r * r ≤ n) (above : n < (r + 2 ^ k) * (r + 2 ^ k)) :
    isqrtFrom k n r * isqrtFrom k n r ≤ n ∧ n < (isqrtFrom k n r + 1) * (isqrtFrom k n r + 1) := by
  induction k generalizing r with
  | zero => exact ⟨below, above⟩
  | succ k ih =>
    unfold isqrtFrom
    split
    · next fits => exact ih _ fits (by rwa [add_assoc, ← two_mul, ← pow_succ'])
    · next exceeds => exact ih _ below (Nat.lt_of_not_le exceeds)

/-- Settles O16: 32 bits find the root of a number below 2^64. -/
theorem integerRootIsLargest : Obligations.IntegerRootIsLargest := fun n bound =>
  isqrtFrom_spec 32 n 0 (Nat.zero_le n) (by simpa using bound)

/-! ### Shares (O52) -/

theorem sum_shares (q m n : Nat) : ((List.range n).map (fun i => q + if i < m then 1 else 0)).sum = n * q + min n m := by
  induction n with
  | zero => simp
  | succ n ih =>
    rw [List.range_succ, List.map_append, List.sum_append, ih, Nat.succ_mul]
    simp only [List.map_cons, List.map_nil, List.sum_cons, List.sum_nil]
    split <;> omega

/-- Settles O52: each has the quotient, and the lowest ranks one more. -/
theorem sharesAddUpToOrder : Obligations.SharesAddUpToOrder := by
  intro total n positive
  refine ⟨?_, fun i j before _ => ?_⟩
  · have sum := sum_shares (total / n) (total % n) n
    rw [min_eq_right (Nat.mod_lt total positive).le, Nat.div_add_mod] at sum
    exact sum
  · unfold shareOf
    split <;> split <;> omega

/-! ### The neighbour clamp (O53) -/

/-- The greatest of the lower bounds is that of the highest neighbour. -/
theorem foldl_max_lower (spread : Int) (p : Nat) (rest : List Nat) :
    ∃ top ∈ p :: rest, (∀ x ∈ p :: rest, x ≤ top) ∧
      rest.foldl (fun (m : Int) (x : Nat) => max m ((x : Int) - spread)) ((p : Int) - spread) = (top : Int) - spread := by
  induction rest generalizing p with
  | nil => exact ⟨p, by simp, by simp, rfl⟩
  | cons y ys ih =>
    obtain ⟨top, member, highest, lower⟩ := ih (max p y)
    refine ⟨top, ?_, fun x hx => ?_, ?_⟩
    · rcases List.mem_cons.mp member with rfl | later
      · rcases max_choice p y with h | h <;> simp [h]
      · simp [later]
    · have first := highest (max p y) List.mem_cons_self
      rcases List.mem_cons.mp hx with rfl | hx
      · omega
      · rcases List.mem_cons.mp hx with rfl | hx
        · omega
        · exact highest x (List.mem_cons_of_mem _ hx)
    · rw [List.foldl_cons, ← lower]
      congr 1
      push_cast
      omega

/-- The least of the upper bounds is that of the lowest neighbour. -/
theorem foldl_min_upper (spread : Int) (p : Nat) (rest : List Nat) :
    ∃ bottom ∈ p :: rest, (∀ x ∈ p :: rest, bottom ≤ x) ∧
      rest.foldl (fun (m : Int) (x : Nat) => min m ((x : Int) + spread)) ((p : Int) + spread) = (bottom : Int) + spread := by
  induction rest generalizing p with
  | nil => exact ⟨p, by simp, by simp, rfl⟩
  | cons y ys ih =>
    obtain ⟨bottom, member, lowest, upper⟩ := ih (min p y)
    refine ⟨bottom, ?_, fun x hx => ?_, ?_⟩
    · rcases List.mem_cons.mp member with rfl | later
      · rcases min_choice p y with h | h <;> simp [h]
      · simp [later]
    · have first := lowest (min p y) List.mem_cons_self
      rcases List.mem_cons.mp hx with rfl | hx
      · omega
      · rcases List.mem_cons.mp hx with rfl | hx
        · omega
        · exact lowest x (List.mem_cons_of_mem _ hx)
    · rw [List.foldl_cons, ← upper]
      congr 1
      push_cast
      omega

theorem intoTravel_eq (img : Image) (x : Int) : (intoTravel img x : Int) = max 0 (min (img.params.openMax : Int) x) := by
  obtain ⟨low, -⟩ := clampInt_mem (lo := 0) (hi := img.params.openMax) (x := x) (by omega)
  rw [intoTravel, Int.toNat_of_nonneg low, clampInt_eq_max_min (by omega)]

/-- The clamp by the highest and the lowest of the neighbours that bound (R82). -/
theorem neighbourClamp_eq (img : Image) {openings : List Nat} (unclamped : Nat) {top bottom : Nat} (hasTop : top ∈ openings)
    (hasBottom : bottom ∈ openings) (bounds : ∀ x ∈ openings, bottom ≤ x ∧ x ≤ top) :
    (neighbourClamp img openings unclamped : Int) =
      max 0 (min (img.params.openMax : Int)
        (if top ≤ bottom + 2 * img.params.spread then
          max ((top : Int) - img.params.spread) (min ((bottom : Int) + img.params.spread) unclamped)
         else (((top + bottom) / 2 : Nat) : Int))) := by
  obtain _ | ⟨p, rest⟩ := openings
  · simp at hasTop
  obtain ⟨top', hasTop', highest, lower⟩ := foldl_max_lower img.params.spread p rest
  obtain ⟨bottom', hasBottom', lowest, upper⟩ := foldl_min_upper img.params.spread p rest
  obtain rfl : top = top' := le_antisymm (highest top hasTop) (bounds top' hasTop').2
  obtain rfl : bottom = bottom' := le_antisymm (bounds bottom' hasBottom').1 (lowest bottom hasBottom)
  have casts : (do let a ← rest; pure (a : Int)) = rest.map (fun a : Nat => (a : Int)) := bind_pure_comp _ _
  unfold neighbourClamp
  dsimp only
  rw [casts, List.foldl_map, List.foldl_map, lower, upper]
  by_cases meets : top ≤ bottom + 2 * img.params.spread
  · have room : (top : Int) - img.params.spread ≤ (bottom : Int) + img.params.spread := by omega
    rw [if_pos meets, if_pos room, intoTravel_eq, clampInt_eq_max_min room]
  · have gap : ¬ (top : Int) - img.params.spread ≤ (bottom : Int) + img.params.spread := by omega
    have middle : floorDiv ((top : Int) - img.params.spread + ((bottom : Int) + img.params.spread)) 2 = ((top + bottom) / 2 : Nat) := by
      rw [floorDiv, Int.fdiv_eq_ediv_of_nonneg _ (by omega)]
      omega
    rw [if_neg meets, if_neg gap, intoTravel_eq, middle]

/-- The highest and the lowest of the neighbours, where there are any. -/
theorem exists_bounds {openings : List Nat} {x : Nat} (hx : x ∈ openings) :
    ∃ top ∈ openings, ∃ bottom ∈ openings, ∀ x ∈ openings, bottom ≤ x ∧ x ≤ top := by
  obtain _ | ⟨p, rest⟩ := openings
  · simp at hx
  obtain ⟨top, hasTop, highest, -⟩ := foldl_max_lower 0 p rest
  obtain ⟨bottom, hasBottom, lowest, -⟩ := foldl_min_upper 0 p rest
  exact ⟨top, hasTop, bottom, hasBottom, fun x hx => ⟨lowest x hx, highest x hx⟩⟩

/-- Settles O53: each clause by the highest and the lowest of the neighbours. -/
theorem clampKeepsWithinSpread : Obligations.ClampKeepsWithinSpread := by
  intro img openings unclamped
  refine ⟨?_, ?_, fun inTravel near => ⟨fun p hp => ?_, fun travel close => ?_⟩, fun p hp q hq bounds meets => ?_,
    fun p hp q hq bounds gap => ?_⟩
  · obtain _ | ⟨p, rest⟩ := openings
    · have clamped := intoTravel_eq img unclamped
      change intoTravel img unclamped ≤ _
      omega
    · obtain ⟨top, hasTop, bottom, hasBottom, bounds⟩ := exists_bounds (x := p) (openings := p :: rest) (by simp)
      have clamped := neighbourClamp_eq img unclamped hasTop hasBottom bounds
      omega
  · rintro rfl
    have clamped := intoTravel_eq img unclamped
    change intoTravel img unclamped = _
    omega
  · obtain ⟨top, hasTop, bottom, hasBottom, bounds⟩ := exists_bounds hp
    have clamped := neighbourClamp_eq img unclamped hasTop hasBottom bounds
    rw [if_pos (near top hasTop bottom hasBottom)] at clamped
    have := inTravel p hp
    have := bounds p hp
    have := near top hasTop bottom hasBottom
    omega
  · obtain _ | ⟨p, rest⟩ := openings
    · have clamped := intoTravel_eq img unclamped
      change intoTravel img unclamped = _
      omega
    · obtain ⟨top, hasTop, bottom, hasBottom, bounds⟩ := exists_bounds (x := p) (openings := p :: rest) (by simp)
      have clamped := neighbourClamp_eq img unclamped hasTop hasBottom bounds
      rw [if_pos (near top hasTop bottom hasBottom)] at clamped
      have := close top hasTop
      have := close bottom hasBottom
      omega
  · have clamped := neighbourClamp_eq img unclamped hp hq bounds
    rwa [if_pos meets] at clamped
  · have clamped := neighbourClamp_eq img unclamped hp hq bounds
    rw [if_neg (by omega)] at clamped
    omega

/-! ### The median (O15) -/

/-- The levels in ascending order are the library's insertion sort. -/
theorem sortLevels_eq (xs : List Int) : sortLevels xs = xs.insertionSort (· ≤ ·) := by
  have insert : insertSorted = List.orderedInsert (· ≤ ·) := by
    funext x ys
    induction ys with
    | nil => rfl
    | cons y ys ih => simp only [insertSorted, List.orderedInsert, ih]
  rw [sortLevels, insert]
  rfl

theorem sortLevels_perm (xs : List Int) : (sortLevels xs).Perm xs := by
  rw [sortLevels_eq]
  exact List.perm_insertionSort _ xs

theorem sortLevels_pairwise (xs : List Int) : (sortLevels xs).Pairwise (· ≤ ·) := by
  rw [sortLevels_eq]
  exact List.pairwise_insertionSort _ xs

/-- The values in ascending order are the same in whatever order they came. -/
theorem sortLevels_unique {xs ys : List Int} (perm : xs.Perm ys) (ascending : ys.Pairwise (· ≤ ·)) : sortLevels xs = ys :=
  ((sortLevels_perm xs).trans perm).eq_of_pairwise' (sortLevels_pairwise xs) ascending

/-- In an ascending list at most the places before a value hold less, and at most those after it more. -/
theorem filter_length_of_pairwise {ys : List Int} {m : Int} {n : Nat} (ascending : ys.Pairwise (· ≤ ·)) (middle : ys[n]? = some m) :
    (ys.filter (fun x => x < m)).length ≤ n ∧ (ys.filter (fun x => m < x)).length + n + 1 ≤ ys.length := by
  induction ys generalizing n with
  | nil => simp at middle
  | cons y ys ih =>
    obtain ⟨least, ascending⟩ := List.pairwise_cons.mp ascending
    cases n with
    | zero =>
      obtain rfl : y = m := by simpa using middle
      have noLess : ys.filter (fun x => x < y) = [] := by simpa using least
      have more := List.length_filter_le (fun x => decide (y < x)) ys
      simp only [List.filter_cons, lt_self_iff_false, decide_false, Bool.false_eq_true, if_false, noLess, List.length_nil, List.length_cons]
      omega
    | succ n =>
      have later : ys[n]? = some m := by simpa using middle
      have upTo : y ≤ m := least m (List.mem_of_getElem? later)
      obtain ⟨less, more⟩ := ih ascending later
      refine ⟨?_, ?_⟩
      · rw [List.filter_cons]
        split
        · rw [List.length_cons]
          omega
        · omega
      · rw [List.filter_cons, if_neg (by simpa using upTo), List.length_cons]
        omega

theorem median_of_odd {xs : List Int} (odd : xs.length % 2 = 1) : median xs = (sortLevels xs)[xs.length / 2]? := by
  unfold median
  rw [if_neg (by omega), if_pos odd]

theorem median_of_even {xs : List Int} (some : xs.length ≠ 0) (even : xs.length % 2 = 0) :
    median xs =
      Option.some (floorDiv ((sortLevels xs).getD (xs.length / 2 - 1) 0 + (sortLevels xs).getD (xs.length / 2) 0) 2) := by
  unfold median
  rw [if_neg some, if_neg (by omega)]

theorem median_eq_none {xs : List Int} : median xs = none ↔ xs = [] := by
  refine ⟨fun none => ?_, fun empty => by rw [empty]; rfl⟩
  by_contra some
  have positive := List.length_pos_iff.mpr some
  rcases Nat.mod_two_eq_zero_or_one xs.length with even | odd
  · rw [median_of_even (by omega) even] at none
    cases none
  · rw [median_of_odd odd, List.getElem?_eq_none_iff, (sortLevels_perm xs).length_eq] at none
    omega

/-- Settles O15: the values in ascending order, in whatever order they came, and their middle. -/
theorem medianIsMiddleValue : Obligations.MedianIsMiddleValue := by
  refine ⟨fun xs ys perm => ?_, fun xs => median_eq_none, fun xs m odd middle => ?_, fun xs ys m perm ascending middle => ⟨fun n odd => ?_,
    fun n a b even left right => ?_⟩⟩
  · have sorted : sortLevels xs = sortLevels ys := sortLevels_unique (perm.trans (sortLevels_perm ys).symm) (sortLevels_pairwise ys)
    unfold median
    rw [sorted, perm.length_eq]
  · rw [median_of_odd odd] at middle
    have perm := sortLevels_perm xs
    obtain ⟨less, more⟩ := filter_length_of_pairwise (sortLevels_pairwise xs) middle
    refine ⟨perm.mem_iff.mp (List.mem_of_getElem? middle), ?_, ?_⟩
    · rw [← (perm.filter _).length_eq]
      omega
    · rw [← (perm.filter _).length_eq]
      rw [perm.length_eq] at more
      omega
  · have length := perm.length_eq
    rw [median_of_odd (by omega), sortLevels_unique perm ascending, length, odd] at middle
    rw [← middle]
    congr 1
    omega
  · have length := perm.length_eq
    rw [median_of_even (by omega) (by omega), sortLevels_unique perm ascending, length, even] at middle
    have first : (2 * n + 2) / 2 - 1 = n := by omega
    have second : (2 * n + 2) / 2 = n + 1 := by omega
    rw [first, second, List.getD_eq_getElem?_getD, List.getD_eq_getElem?_getD, left, right, floorDiv,
      Int.fdiv_eq_ediv_of_nonneg _ (by omega)] at middle
    have mean : (a + b) / 2 = m := Option.some.inj middle
    omega

end Sys2Proof.Proofs
end

section
/-! SUPPORT. The refill of the step queue, action by action (O51). -/

namespace Sys2Proof.Proofs

open Sys2Proof.Machine Sys2Proof.Safety

/-! ### The actions -/

/-- A push: the cursor's index joins the queue, the cursor moves on, the spin count is cleared (R124, R128). -/
theorem refillAction_push {img : Image} {p : Plan} {c : Cursor} (cursor : p.interp.cursor = some c) :
    refillAction img p =
      if c.index ≤ 127 ∧ (stepAt img c.index).kind ≠ .empty then
        some { p with queue := p.queue ++ [c.index], interp := { p.interp with cursor := advanceCursor c, spin := 0 } }
      else none := by
  simp only [refillAction, cursor, pushable, Bool.and_eq_true, decide_eq_true_eq, bne_iff_ne]

/-- A code: fetched from an address up to 63, decoded and executed, while fewer than 33 have been executed without a push (R125 to R129). -/
theorem refillAction_code {img : Image} {p : Plan} (cursor : p.interp.cursor = none) :
    refillAction img p =
      if p.interp.spin < 32 then
        (fetchCode img p.interp.codePtr).bind fun op =>
          (executeOp op { p.interp with spin := p.interp.spin + 1 }).map fun i => { p with interp := i }
      else none := by
  simp only [refillAction, cursor, Config.spinLimit]
  cases fetchCode img p.interp.codePtr <;> rfl

theorem fetchCode_above {img : Image} {address : Nat} (above : 63 < address) : fetchCode img address = none := if_neg (by omega)

theorem fetchCode_of_code {img : Image} {address : Nat} {k : RawCode} (inRange : address ≤ 63) (code : img.codes[address]? = some k) :
    fetchCode img address = decodeCode k := by
  rw [fetchCode, if_pos inRange, code]
  rfl

/-- What an action leaves of the queue and of the codes that may follow it: one push more, or one code more without a push. -/
theorem refillAction_advances {img : Image} {p q : Plan} (h : refillAction img p = some q) :
    (∃ i, q.queue = p.queue ++ [i] ∧ q.interp.spin = 0) ∨ q.queue = p.queue ∧ p.interp.spin < 32 ∧ q.interp.spin = p.interp.spin + 1 := by
  cases cursor : p.interp.cursor with
  | some c =>
    rw [refillAction_push cursor] at h
    split at h
    · obtain rfl := Option.some.inj h
      exact .inl ⟨c.index, rfl, rfl⟩
    · cases h
  | none =>
    rw [refillAction_code cursor] at h
    split at h
    · next spins =>
      obtain ⟨op, -, executed⟩ := Option.bind_eq_some_iff.mp h
      obtain ⟨i, executes, rfl⟩ := Option.map_eq_some_iff.mp executed
      have spin : i.spin = p.interp.spin + 1 := by
        cases op <;> simp only [executeOp] at executes
        all_goals (repeat' split at executes) <;> simp only [Option.some.injEq, reduceCtorEq] at executes <;> rw [← executes]
      exact .inr ⟨rfl, spins, spin⟩
    · cases h

/-! ### The loop -/

/-- The actions that a refill can still take: at most 32 codes to a push, and 8 pushes (R127, R128). -/
def actionsLeft (p : Plan) : Nat := (8 - p.queue.length) * 33 + (32 - p.interp.spin)

theorem actionsLeft_lt {img : Image} {p q : Plan} (room : p.queue.length < 8) (h : refillAction img p = some q) :
    actionsLeft q < actionsLeft p := by
  unfold actionsLeft
  rcases refillAction_advances h with ⟨i, queue, spin⟩ | ⟨queue, spins, spin⟩
  · rw [queue, spin, List.length_append, List.length_singleton]
    omega
  · rw [queue, spin]
    omega

theorem actionsLeft_lt_fuel (p : Plan) : actionsLeft p < refillFuel := by
  unfold actionsLeft refillFuel
  omega

theorem refillLoop_succ (img : Image) (n : Nat) (p : Plan) :
    refillLoop img (n + 1) p =
      if 8 ≤ p.queue.length ∨ p.interp.ended = true then some p else (refillAction img p).bind (refillLoop img n) := by
  rw [refillLoop]
  cases refillAction img p <;> rfl

/-- With fuel enough for the actions that are left, the fuel does not matter. -/
theorem refillLoop_fuel {img : Image} (n m : Nat) (p : Plan) (enough : actionsLeft p < n) (enough' : actionsLeft p < m) :
    refillLoop img n p = refillLoop img m p := by
  induction n generalizing m p with
  | zero => omega
  | succ n ih =>
    obtain _ | m := m
    · omega
    rw [refillLoop_succ, refillLoop_succ]
    split
    · rfl
    · next goesOn =>
      obtain ⟨room, -⟩ := not_or.mp goesOn
      cases action : refillAction img p with
      | none => rfl
      | some q =>
        have fewer := actionsLeft_lt (Nat.lt_of_not_le room) action
        exact ih m q (by omega) (by omega)

/-- An action after which a refill goes on: the queue has room and the plan has not ended. -/
def ActionTaken (img : Image) (a b : Plan) : Prop := a.queue.length < 8 ∧ a.interp.ended = false ∧ refillAction img a = some b

theorem refillLoop_none {img : Image} (n : Nat) {p : Plan} (h : refillLoop img n p = none) :
    ∃ q, Relation.ReflTransGen (ActionTaken img) p q ∧ q.queue.length < 8 ∧ q.interp.ended = false ∧ refillAction img q = none := by
  induction n generalizing p with
  | zero => cases h
  | succ n ih =>
    rw [refillLoop_succ] at h
    split at h
    · cases h
    · next goesOn =>
      obtain ⟨room, runs⟩ := not_or.mp goesOn
      have room := Nat.lt_of_not_le room
      have runs := Bool.eq_false_of_not_eq_true runs
      cases action : refillAction img p with
      | none => exact ⟨p, .refl, room, runs, action⟩
      | some q =>
        rw [action] at h
        obtain ⟨r, taken, rest⟩ := ih h
        exact ⟨r, .head ⟨room, runs, action⟩ taken, rest⟩

theorem refillLoop_some {img : Image} (n : Nat) {p q : Plan} (enough : actionsLeft p < n) (h : refillLoop img n p = some q) :
    (8 ≤ q.queue.length ∨ q.interp.ended = true) ∧ p.queue <+: q.queue := by
  induction n generalizing p with
  | zero => omega
  | succ n ih =>
    rw [refillLoop_succ] at h
    split at h
    · next ends =>
      obtain rfl := Option.some.inj h
      exact ⟨ends, List.prefix_rfl⟩
    · next goesOn =>
      obtain ⟨room, -⟩ := not_or.mp goesOn
      obtain ⟨r, action, rest⟩ := Option.bind_eq_some_iff.mp h
      have fewer := actionsLeft_lt (Nat.lt_of_not_le room) action
      obtain ⟨ends, tail⟩ := ih (by omega) rest
      refine ⟨ends, List.IsPrefix.trans ?_ tail⟩
      rcases refillAction_advances action with ⟨i, queue, -⟩ | ⟨queue, -⟩
      · rw [queue]; exact List.prefix_append ..
      · rw [queue]

/-! ### The codes (O51) -/

/-- A code within reach, fetched and executed. -/
theorem refillAction_of_code {img : Image} {p : Plan} {k : RawCode} (cursor : p.interp.cursor = none) (spins : p.interp.spin < 32)
    (inRange : p.interp.codePtr ≤ 63) (code : img.codes[p.interp.codePtr]? = some k) :
    refillAction img p =
      (decodeCode k).bind fun op => (executeOp op { p.interp with spin := p.interp.spin + 1 }).map fun i => { p with interp := i } := by
  rw [refillAction_code cursor, if_pos spins, fetchCode_of_code inRange code]

/-- No code decodes with an operation of 0 or above 7 (R185). -/
theorem decodeCode_undecodable {k : RawCode} (h : k.op = 0 ∨ 7 < k.op) : decodeCode k = none := by
  unfold decodeCode
  split <;> first | omega | rfl

theorem decodeCode_steps {k : RawCode} (op : k.op = 1) :
    decodeCode k = if k.a ≤ k.b ∧ 1 ≤ k.c ∧ k.c ≤ 255 then some (.steps k.a k.b k.c) else none := by simp only [decodeCode, op]

theorem decodeCode_repeat {k : RawCode} (op : k.op = 2) : decodeCode k = if 2 ≤ k.a ∧ k.a ≤ 255 then some (.repeatLoop k.a) else none := by
  simp only [decodeCode, op]

theorem decodeCode_forever {k : RawCode} (op : k.op = 3) : decodeCode k = some .forever := by simp only [decodeCode, op]
theorem decodeCode_next {k : RawCode} (op : k.op = 4) : decodeCode k = some .nextLoop := by simp only [decodeCode, op]
theorem decodeCode_call {k : RawCode} (op : k.op = 5) : decodeCode k = some (.call k.a) := by simp only [decodeCode, op]
theorem decodeCode_back {k : RawCode} (op : k.op = 6) : decodeCode k = some .back := by simp only [decodeCode, op]
theorem decodeCode_finish {k : RawCode} (op : k.op = 7) : decodeCode k = some .finish := by simp only [decodeCode, op]

/-- Settles O51: the loop by its fuel, which is never spent; the actions by the cursor and by the code. -/
theorem refillRunsToItsEnd : Obligations.RefillRunsToItsEnd := by
  refine ⟨fun img p => ?_, fun img p h => refillLoop_none refillFuel h, fun img p q h => ?_, fun img p c cursor => ⟨fun inRange filled => ?_, fun faulty => ?_⟩,
    fun img p cursor => ⟨fun faulty => ?_, fun k at1 spins inRange code next => ?_⟩⟩
  · have more : refillLoop img refillFuel p = refillLoop img (refillFuel + 1) p :=
      refillLoop_fuel _ _ p (actionsLeft_lt_fuel p) (Nat.lt_succ_of_lt (actionsLeft_lt_fuel p))
    rw [more, refillLoop_succ]
  · obtain ⟨ends, queued⟩ := refillLoop_some refillFuel (actionsLeft_lt_fuel p) h
    exact ⟨ends, queued, (refillLoop_frame refillFuel h).symm⟩
  · rw [refillAction_push cursor, if_pos ⟨inRange, filled⟩]
    rfl
  · rw [refillAction_push cursor, if_neg fun valid => faulty.elim (by omega) valid.2]
  · rw [refillAction_code cursor]
    rcases faulty with spun | above
    · exact if_neg (by omega)
    · rw [fetchCode_above above]
      exact ite_self _
  · have acts := refillAction_of_code cursor spins inRange code
    subst next
    refine ⟨fun op => ?_, fun op => ?_, fun op => ?_, fun op => ⟨fun none => ?_, fun f rest stack => ⟨fun forever => ?_, fun n counted => ?_⟩⟩,
      fun op => ?_, fun op => ⟨fun none => ?_, fun a rest stack => ?_⟩, fun op => ?_, fun undecodable => ?_⟩
    · rw [acts, decodeCode_steps op]
      split <;> rfl
    · rw [acts, decodeCode_repeat op]
      by_cases valid : 2 ≤ k.a ∧ k.a ≤ 255
      · by_cases room : p.interp.loops.length < 4 <;> simp [executeOp, Config.stackDepth, valid, room]
      · rw [if_neg valid, if_neg fun h => valid ⟨h.1, h.2.1⟩]
        rfl
    · rw [acts, decodeCode_forever op]
      by_cases room : p.interp.loops.length < 4 <;> simp [executeOp, Config.stackDepth, room]
    · rw [acts, decodeCode_next op]
      simp [executeOp, none]
    · rw [acts, decodeCode_next op]
      simp [executeOp, stack, forever]
    · rw [acts, decodeCode_next op]
      have again : 1 < n ↔ 2 ≤ n := Iff.rfl
      simp only [Option.bind_some, executeOp, stack, counted, again]
      split <;> rfl
    · rw [acts, decodeCode_call op]
      by_cases room : p.interp.calls.length < 4 <;> simp [executeOp, Config.stackDepth, room]
    · rw [acts, decodeCode_back op]
      simp [executeOp, none]
    · rw [acts, decodeCode_back op]
      simp [executeOp, stack]
    · rw [acts, decodeCode_finish op]
      rfl
    · rw [acts, decodeCode_undecodable undecodable]
      rfl

end Sys2Proof.Proofs
end

section
/-! SUPPORT. The line: idle, the start of sending, its loss and its end, and the dominant run (O38 to O41). -/

namespace Sys2Proof.Proofs

open Sys2Proof.Machine Sys2Proof.Safety

/-! ### Events of a line that works -/

theorem effect_of_lineWorks {i : Instr} {s : State} {f : State → State} (works : lineWorks s = true) (form : effect i = whileLineWorks f) :
    effect i s = f s := by
  rw [form]
  exact whileLineWorks_of_true f works

/-- An event that moves the line alone, after which no report is due, ends with its effects. -/
theorem exec_of_undue {i : Instr} {s u : State} (h : effect i s = u) (same : reportedChange s u = false) (notDue : reportDue u = false) :
    exec i s = .next u := by
  rw [exec_eq_effect, h, concludeEvent_of_same same, serveReports_of_not_due notDue]

theorem reportedChange_of_line {s u : State} (frame : u = { s with line := u.line }) : reportedChange s u = false := by
  rw [frame]
  exact reportedChange_of_same rfl rfl rfl rfl rfl rfl

/-- While the own STATE is on the line no report is built (R42, R46). -/
theorem reportDue_of_sendingState {s : State} (busy : sendingState s = true) : reportDue s = false := by simp [reportDue, busy]

theorem reportDue_of_nothing_waiting {s : State} (mark : s.line.mark = false) (periodic : s.line.periodicDue = false) : reportDue s = false := by
  simp [reportDue, mark, periodic]

/-- Within the gap a mark waits (R44). -/
theorem reportDue_of_gap {s : State} (gap : s.line.gapTimer < 50) (periodic : s.line.periodicDue = false) : reportDue s = false := by
  have notOver : gapOver s = false := decide_eq_false (Nat.not_le.mpr gap)
  simp [reportDue, periodic, notOver]

/-! ### Idle and the start of sending (O38) -/

theorem becomeIdle_of_silent {s : State} (silent : s.line.sending = none) :
    becomeIdle s = s.withLine { s.line with idle := true, awaitIdle := false, dominantRun := none } := if_pos (by rw [silent]; rfl)

theorem startSending_of_offer {s : State} {f : OutFrame} (idle : s.line.idle = true) (silent : s.line.sending = none)
    (offer : offeredFrame s = some f) :
    startSending s = s.withLine { s.line with sending := some f, tideReplaced := false, idle := false, dominantRun := some 0 } := by
  simp [startSending, idle, silent, offer]

theorem startSending_of_none {s : State} (h : s.line.idle = false ∨ offeredFrame s = none) : startSending s = s := by
  rcases h with busy | none
  · simp [startSending, busy]
  · simp [startSending, none]

/-- Another node's start bit that falls due ends the idle. -/
theorem takeChanges_dominant_idle {dt : Nat} {c : LineChange} (later : List LineChange) (l : Line) (dominant : c.dominant = true)
    (due : c.wait ≤ dt) : (takeChanges dt (c :: later) l).idle = false := by
  rw [takeChanges_of_due later l due]
  exact takeChanges_busy _ later (by simp [takeLevel, dominant])

theorem takeChanges_idle_of_none_due {dt : Nat} {coming : List LineChange} (l : Line) (h : NoChangeWithin dt coming) :
    (takeChanges dt coming l).idle = l.idle := by
  rw [takeChanges_of_none_due l h]
  rfl

/-- Settles O38: the receiver's and the sender's events on an idle line, and the changes of the level that fall due. -/
theorem idleLineLetsStationSend : Obligations.IdleLineLetsStationSend := by
  refine ⟨fun s works silent => ⟨?_, fun f idle state => ?_, fun r idle noState tide => ?_, fun h => ?_⟩, fun s dt c later counts coming dominant due => ?_,
    fun s dt none => ?_, fun inputs s works rejected => ?_⟩
  · have idles := (effect_of_lineWorks (i := .lineIdle) works rfl).trans (becomeIdle_of_silent silent)
    exact exec_of_effect idles
  · have starts := (effect_of_lineWorks (i := .sendStart) works rfl).trans
      (startSending_of_offer idle silent (f := .state f) (by rw [offeredFrame, state]))
    exact ⟨_, exec_of_undue starts (reportedChange_of_line rfl) (reportDue_of_sendingState rfl), rfl⟩
  · have starts := (effect_of_lineWorks (i := .sendStart) works rfl).trans
      (startSending_of_offer idle silent (f := .tide r) (by rw [offeredFrame, noState, tide]; rfl))
    exact exec_of_effect starts
  · refine exec_quiet ((effect_of_lineWorks works rfl).trans (startSending_of_none (h.imp_right fun ⟨noState, noTide⟩ => ?_)))
    rw [offeredFrame, noState, noTide]
    rfl
  · obtain ⟨idle, -, -⟩ := elapse_level_of_line (dt := dt) counts
    rw [idle, coming]
    exact takeChanges_dominant_idle later _ dominant due
  · cases counts : s.loader.inReset with
    | true => rw [elapse_of_reset counts]
    | false => rw [(elapse_level_of_line counts).1, takeChanges_idle_of_none_due _ none]
  · have hears : effect (.controlTick inputs) s = s.withLine (takeChanges 0 inputs.line s.line) := by
      simp only [effect, rejected]
      exact whileLineWorks_of_true _ works
    exact exec_of_effect hears

/-! ### The loss of the line (O39) -/

/-- Settles O39: at a bit that the frame drives so the station stops, at any other nothing happens. -/
theorem lossKeepsFrameInSlot : Obligations.LossKeepsFrameInSlot := by
  intro bit driven i s l works event after
  have effects : effect i s = if drivenBit bit s = some driven then s.withLine l else s := by
    cases driven <;> simp only [event, effect, Bool.false_eq_true, if_true, if_false] <;> rw [whileLineWorks_of_true _ works, after] <;>
      simp only [stopSending, Bool.false_eq_true, if_true, if_false]
  refine ⟨fun drives => ?_, fun other => exec_quiet (by rw [effects, if_neg other])⟩
  rw [if_pos drives] at effects
  obtain ⟨t, run, frame, reported⟩ := exec_of_effect effects
  refine ⟨t, run, frame, reported, fun mark periodic => ?_⟩
  have undue : exec i s = .next (s.withLine l) :=
    exec_of_undue effects (reportedChange_of_line rfl) (by subst after; exact reportDue_of_nothing_waiting mark periodic)
  have same : t = s.withLine l := Host.Outcome.next.inj (run.symm.trans undue)
  rw [same]
  rfl

/-! ### The end of a frame (O40) -/

/-- Settles O40: of the STATE the gap begins, so that no report follows at once. -/
theorem completedFrameLeavesSlot : Obligations.CompletedFrameLeavesSlot := by
  refine fun s works => ⟨fun f sends => ?_, fun r sends => ?_⟩
  · have completes := effect_of_lineWorks (i := .frameComplete) works rfl
    simp only [completeFrame, sends, clearKinds_one] at completes
    refine ⟨_, exec_of_undue completes (reportedChange_of_same rfl rfl rfl rfl rfl rfl) (reportDue_of_gap ?_ rfl), rfl⟩
    exact Nat.zero_lt_succ 49
  · have completes := effect_of_lineWorks (i := .frameComplete) works rfl
    simp only [completeFrame, sends, clearKinds_one] at completes
    exact exec_of_effect completes

/-! ### The blocked sender (O41) -/

/-- While the station sends, a run counts no time (R173). -/
theorem takeChanges_run_of_sending {dt n : Nat} {coming : List LineChange} {l : Line} (sends : l.sending.isSome = true)
    (short : ∀ run, l.dominantRun = some run → run ≤ n) : ∀ run, (takeChanges dt coming l).dominantRun = some run → run ≤ n := by
  have stands : ∀ (k : Nat) {m : Line}, m.sending.isSome = true → runLevel k m = m := fun k m h => by simp [runLevel, h]
  induction coming generalizing dt l with
  | nil => rw [takeChanges, stands dt sends]; exact short
  | cons c cs ih =>
    unfold takeChanges
    rw [stands _ sends, stands _ sends]
    split
    · refine ih (by unfold takeLevel; split <;> exact sends) fun run => ?_
      unfold takeLevel
      split
      · rintro ⟨rfl⟩
        cases stood : l.dominantRun with
        | none => exact Nat.zero_le n
        | some r => exact short r stood
      · nofun
    · exact short

theorem runExceeds_iff {l : Line} : runExceeds l = true ↔ ∃ run, l.dominantRun = some run ∧ 2000 < run := by
  unfold runExceeds
  cases l.dominantRun with
  | none => simp
  | some run => exact decide_eq_true_iff.trans (by simp [Config.txBlockedMs])

theorem exceedRun_of_run {s : State} {age : Nat} (run : s.line.dominantRun = some age) :
    exceedRun s =
      if runExceeds (runLevel 1 (elapse (2000 - age) s).line) then
        raise [.txBlocked] ((elapse (2001 - age) s).withLine { (elapse (2001 - age) s).line with idle := false, awaitIdle := true })
      else s := by
  simp only [exceedRun, run]
  rfl

theorem runLevel_run (dt : Nat) (l : Line) :
    (runLevel dt l).dominantRun = if l.sending.isSome then l.dominantRun else l.dominantRun.map (· + dt) := by
  simp only [runLevel, runTimer]

/-- A run that stands through 2000 ms of a line on which the station is silent exceeds them. -/
theorem runExceeds_of_stands {l : Line} {run : Nat} (silent : l.sending = none) (stands : l.dominantRun = some run) (long : 2000 ≤ run) :
    runExceeds (runLevel 1 l) = true := runExceeds_iff.mpr ⟨run + 1, by simp [runLevel_run, silent, stands], by omega⟩

/-- A run that has ended by 2000 ms, or is one of the station's own sending, does not. -/
theorem not_runExceeds {l : Line}
    (h : (∀ run, l.dominantRun = some run → run < 2000) ∨ (l.sending.isSome = true ∧ ∀ run, l.dominantRun = some run → run ≤ 2000)) :
    runExceeds (runLevel 1 l) ≠ true := by
  intro exceeds
  obtain ⟨run, stands, long⟩ := runExceeds_iff.mp exceeds
  rw [runLevel_run] at stands
  rcases h with short | ⟨sends, short⟩
  · split at stands
    · have := short run stands
      omega
    · obtain ⟨r, stood, rfl⟩ := Option.map_eq_some_iff.mp stands
      have := short r stood
      omega
  · rw [if_pos sends] at stands
    have := short run stands
    omega

/-- The level of the line after one change and the time up to the next. -/
theorem takeChanges_one {c : LineChange} {later : List LineChange} {dt : Nat} {l : Line} (silent : l.sending = none)
    (none : NoChangeWithin dt later) :
    (takeChanges (c.wait + dt) (c :: later) l).dominantRun =
      if c.dominant then some ((l.dominantRun.map (· + c.wait)).getD 0 + dt) else Option.none := by
  rw [takeChanges_of_due later l (Nat.le_add_right ..), Nat.add_sub_cancel_left, takeChanges_of_none_due _ none]
  cases dominant : c.dominant <;> simp [takeLevel, runLevel, silent, runTimer]

/-- Settles O41: the two rows that raise TX_BLOCKED, and the count of the run. -/
theorem blockedSenderIsLatched : Obligations.BlockedSenderIsLatched := by
  refine ⟨fun s c b age works inactive => ⟨fun timer fresh moment => ?_, fun run stood moment => ⟨fun r silent stands long => ?_, fun short => ?_⟩,
    fun none => ?_⟩, fun s c later dt counts silent coming none => ?_, fun s dt counts silent none => ?_⟩
  · have raises : effect .txBlockedTimer s =
        (b.withLine { b.line with txExpired := true }).withModeCtl (raisedModes .txBlocked (b.withLine { b.line with txExpired := true })) := by
      refine (effect_of_lineWorks works rfl).trans ?_
      rw [moment]
      simp only [expireTx, timer, fresh, Bool.false_eq_true, if_false]
      exact raise_of_degrade rfl ((condition_elapse ..).trans inactive)
    obtain ⟨t, runs, frame, reported⟩ := exec_of_effect raises
    exact ⟨t, runs, frame, reported⟩
  · have raises : effect .dominantRun s =
        (b.withLine { b.line with idle := false, awaitIdle := true }).withModeCtl
          (raisedModes .txBlocked (b.withLine { b.line with idle := false, awaitIdle := true })) := by
      refine (effect_of_lineWorks works rfl).trans ?_
      have exceeds : runExceeds (runLevel 1 (elapse (2000 - age) s).line) = true :=
        runExceeds_of_stands ((sending_elapse ..).trans silent) (stood ▸ stands) long
      rw [exceedRun_of_run run, if_pos exceeds, moment]
      exact raise_of_degrade rfl ((condition_elapse ..).trans inactive)
    obtain ⟨t, runs, frame, reported⟩ := exec_of_effect raises
    exact ⟨t, runs, frame, reported⟩
  · refine exec_quiet ((effect_of_lineWorks works rfl).trans ?_)
    rw [exceedRun_of_run run, if_neg (not_runExceeds ?_)]
    refine short.imp (fun short => stood ▸ short) fun ⟨sends, young⟩ => ⟨by rwa [sending_elapse], ?_⟩
    rw [(elapse_level_of_line (inReset_of_lineWorks works)).2.1]
    exact takeChanges_run_of_sending sends fun r stands => by
      obtain rfl := Option.some.inj (run.symm.trans stands)
      exact young
  · refine exec_quiet ((effect_of_lineWorks works rfl).trans ?_)
    simp only [exceedRun, none]
  · obtain ⟨-, run, -⟩ := elapse_level_of_line (dt := c.wait + dt) counts
    rw [run, coming, takeChanges_one silent none]
    refine ⟨fun dominant stood => ?_, fun dominant r stood => ?_, fun recessive => if_neg (by simp [recessive])⟩
    · simp [dominant, stood]
    · simp [dominant, stood]
  · rw [(elapse_level_of_line counts).2.1, takeChanges_of_none_due _ none]
    simp [runLevel, silent, runTimer]

end Sys2Proof.Proofs
end

section
/-! SUPPORT. The end of an encoder read (O8), and the evaluation when both have ended (O9). -/

namespace Sys2Proof.Proofs

open Sys2Proof.Machine Sys2Proof.Safety

/-! ### The sides -/

@[simp] theorem encoderOf_setEncoder (d : Side) (e : EncoderSide) (p : Position) : encoderOf d (setEncoder d e p) = e := by cases d <;> rfl

theorem encoderOf_setEncoder_of_ne {d other : Side} (ne : other ≠ d) (e : EncoderSide) (p : Position) :
    encoderOf other (setEncoder d e p) = encoderOf other p := by cases d <;> cases other <;> first | exact absurd rfl ne | rfl

theorem setEncoder_setEncoder (d : Side) (e e' : EncoderSide) (p : Position) : setEncoder d e (setEncoder d e' p) = setEncoder d e p := by
  cases d <;> rfl

/-- Time runs on over the encoders' reads alone. -/
theorem encoderOf_elapse (d : Side) {dt : Nat} {s : State} (counts : s.loader.inReset = false) :
    encoderOf d (elapse dt s).position = { encoderOf d s.position with readTimer := runTimer dt (encoderOf d s.position).readTimer } := by
  unfold elapse
  rw [if_neg (by simp [counts])]
  cases d <;> rfl

/-- Of the position time moves the two reads alone; with one of them ended, the other's alone. -/
theorem position_elapse_of_ended {side other : Side} {dt : Nat} {s : State} (ne : other ≠ side) (counts : s.loader.inReset = false)
    (ended : (encoderOf other s.position).readTimer = none) (e : EncoderSide) :
    setEncoder side e (elapse dt s).position = setEncoder side e s.position := by
  unfold elapse
  rw [if_neg (by simp [counts])]
  cases side <;> cases other <;> first | exact absurd rfl ne | (simp only [encoderOf] at ended; simp only [setEncoder, ended, runTimer, Option.map_none])
  · cases right : s.position.right
    rw [right] at ended
    simp only at ended
    rw [ended]
  · cases left : s.position.left
    rw [left] at ended
    simp only at ended
    rw [ended]

theorem readsEnded_iff {s : State} {side other : Side} (ne : other ≠ side) :
    readsEnded s = true ↔ (encoderOf side s.position).readTimer = none ∧ (encoderOf other s.position).readTimer = none := by
  cases side <;> cases other <;> first | exact absurd rfl ne | skip
  · simp [readsEnded, encoderOf]
  · simp [readsEnded, encoderOf, and_comm]

/-! ### The end of a read -/

theorem replyGood_iff {e : EncoderSide} {raw : Nat} {verifies : Bool} :
    replyGood e raw verifies = true ↔ verifies = true ∧ ∀ c, e.lastCount = some c → raw ≤ c + 256 ∧ c ≤ raw + 256 := by
  unfold replyGood
  cases e.lastCount <;> simp

/-- How a reply within its window ends its read (R3, R4). -/
def repliedRead (active : Bool) (raw : Nat) (verifies : Bool) (e : EncoderSide) : EncoderSide :=
  if replyGood e raw verifies then goodRead active raw e else failedRead e

theorem repliedRead_readTimer (active : Bool) (raw : Nat) (verifies : Bool) (e : EncoderSide) :
    (repliedRead active raw verifies e).readTimer = none := by
  unfold repliedRead
  split <;> rfl

theorem takeReply_of_window {img : Image} {side : Side} {raw : Half} {verifies : Bool} {s : State} {age : Nat}
    (reads : (encoderOf side s.position).readTimer = some age) (inWindow : age ≤ 20) :
    takeReply img { side := side, later := 0 } raw verifies s =
      endRead img side (repliedRead (condition (encoderKind side) s) raw.toNat verifies (encoderOf side s.position)) s := by
  have answers : ¬((0 : Nat) ≠ 0 ∨ Config.replyMs < age) := by simpa [Config.replyMs] using inWindow
  simp only [takeReply, reads, if_neg answers, repliedRead]
  split <;> rfl

theorem takeReply_discarded {img : Image} {side : Side} {later : Nat} {raw : Half} {verifies : Bool} {s : State}
    (h : (encoderOf side s.position).readTimer = none ∨ (∃ age, (encoderOf side s.position).readTimer = some age ∧ 20 < age) ∨ 0 < later) :
    takeReply img { side := side, later := later } raw verifies s = s := by
  cases reads : (encoderOf side s.position).readTimer with
  | none => simp only [takeReply, reads]
  | some age =>
    simp only [takeReply, reads]
    refine if_pos ?_
    rcases h with none | ⟨a, runs, late⟩ | later
    · rw [none] at reads
      cases reads
    · obtain rfl := Option.some.inj (runs.symm.trans reads)
      exact .inr late
    · exact .inl (Nat.pos_iff_ne_zero.mp later)

theorem closeWindow_of_reads {img : Image} {side : Side} {s : State} {age : Nat} (counts : s.loader.inReset = false)
    (reads : (encoderOf side s.position).readTimer = some age) :
    closeWindow img side s = endRead img side (failedRead (encoderOf side s.position)) (elapse (20 - age) s) := by
  have encoder := encoderOf_elapse side (dt := 20 - age) counts
  have open_ : (encoderOf side (elapse (20 - age) s).position).readTimer.isSome = true := by simp [encoder, reads, runTimer]
  simp only [closeWindow, reads]
  refine (if_pos open_).trans ?_
  rw [show runOn age Config.replyMs s = elapse (20 - age) s from rfl, encoder]
  rfl

/-- While the other read is open nothing is evaluated (R2, log 6). -/
theorem endRead_of_open {img : Image} {side other : Side} {e : EncoderSide} {s : State} (ne : other ≠ side)
    (open_ : (encoderOf other s.position).readTimer.isSome = true) : endRead img side e s = s.withPosition (setEncoder side e s.position) := by
  refine if_neg fun ended => ?_
  have closed := ((readsEnded_iff ne).mp ended).2
  rw [State.withPosition_position, encoderOf_setEncoder_of_ne ne] at closed
  rw [closed] at open_
  cases open_

theorem endRead_of_ended {img : Image} {side other : Side} {e : EncoderSide} {s : State} (ne : other ≠ side) (ends : e.readTimer = none)
    (ended : (encoderOf other s.position).readTimer = none) :
    endRead img side e s = evaluatePosition img (s.withPosition (setEncoder side e s.position)) := by
  refine if_pos ((readsEnded_iff ne).mpr ⟨?_, ?_⟩)
  · rw [State.withPosition_position, encoderOf_setEncoder, ends]
  · rw [State.withPosition_position, encoderOf_setEncoder_of_ne ne, ended]

/-- Settles O8: the other read keeps the unit from evaluating. -/
theorem encoderReadEnds : Obligations.EncoderReadEnds := by
  intro side other raw verifies s b img e e' serving ne encoder ends
  obtain ⟨accepted, counts⟩ := serving
  subst encoder
  refine ⟨fun age reads inWindow open_ => ?_, fun later closed => ?_, fun age reads open_ moment => ?_⟩
  · have replied : e' = repliedRead (condition (encoderKind side) s) raw.toNat verifies (encoderOf side s.position) := by
      rw [ends, repliedRead]
      simp only [replyGood_iff]
      rfl
    have acts := (effect_of_accepted (i := .encoderReply { side := side, later := 0 } raw verifies) accepted rfl).trans
      ((takeReply_of_window reads inWindow).trans (endRead_of_open ne open_))
    rw [← replied] at acts
    exact exec_of_effect acts
  · exact exec_quiet ((effect_of_accepted accepted rfl).trans (takeReply_discarded closed))
  · have stillOpen : (encoderOf other b.position).readTimer.isSome = true := by
      rw [moment, encoderOf_elapse other counts, runTimer_isSome, open_]
    have acts := (effect_of_accepted (i := .replyWindow side) accepted rfl).trans (closeWindow_of_reads counts reads)
    rw [← moment, endRead_of_open ne stillOpen] at acts
    exact exec_of_effect acts

/-! ### Both reads ended (O9) -/

/-- A good run after an evaluation: one of 8 returns to 0 where its side's condition is active (R4). -/
def goodRunAfter (k : FaultKind) (e : EncoderSide) (s : State) : Nat := if 8 ≤ e.goodRun ∧ condition k s = true then 0 else e.goodRun

/-- The position after an evaluation, good runs included (R4 to R9). -/
def positionAfter (img : Image) (s : State) : Position :=
  { recompute img s.position with
    left := { (recompute img s.position).left with goodRun := goodRunAfter .encL s.position.left s }
    right := { (recompute img s.position).right with goodRun := goodRunAfter .encR s.position.right s } }

/-- The conditions that an evaluation has ended (R4, R12), before it raises any. -/
def conditionsAfter (img : Image) (s : State) : FaultSet :=
  let afterLeft := if 8 ≤ s.position.left.goodRun ∧ condition .encL s = true then dropFault .encL s.modeCtl.active else s.modeCtl.active
  let afterRight := if 8 ≤ s.position.right.goodRun ∧ condition .encR s = true then dropFault .encR afterLeft else afterLeft
  if travelMismatch img (recompute img s.position) then afterRight else dropFault .travel afterRight

theorem hasFault_ite (k : FaultKind) (c : Prop) [Decidable c] (a b : FaultSet) :
    hasFault k (if c then a else b) = if c then hasFault k a else hasFault k b := by split <;> rfl

theorem recoverEncoder_eq (d : Side) (s : State) :
    recoverEncoder d s =
      (s.withPosition
        (setEncoder d { encoderOf d s.position with goodRun := goodRunAfter (encoderKind d) (encoderOf d s.position) s } s.position)).withModeCtl
        { s.modeCtl with
          active :=
            if 8 ≤ (encoderOf d s.position).goodRun ∧ condition (encoderKind d) s = true then dropFault (encoderKind d) s.modeCtl.active
            else s.modeCtl.active } := by
  have recovers : (encoderRecovers (encoderOf d s.position) && condition (encoderKind d) s) = true ↔
      8 ≤ (encoderOf d s.position).goodRun ∧ condition (encoderKind d) s = true := by
    simp [encoderRecovers]
  unfold goodRunAfter
  by_cases run : 8 ≤ (encoderOf d s.position).goodRun ∧ condition (encoderKind d) s = true
  · rw [if_pos run, if_pos run]
    exact if_pos (recovers.mpr run)
  · rw [if_neg run, if_neg run]
    refine (if_neg (mt recovers.mp run)).trans ?_
    cases d <;> rfl

/-- The evaluation before the kinds are raised: it has moved the position and ended conditions. -/
theorem evaluatePosition_eq (img : Image) (s : State) :
    evaluatePosition img s =
      raise (positionFaults img (s.withPosition (positionAfter img s)))
        ((s.withPosition (positionAfter img s)).withModeCtl { s.modeCtl with active := conditionsAfter img s }) := by
  have right : condition .encR (recoverEncoder .left (s.withPosition (recompute img s.position))) = condition .encR s := by
    rw [recoverEncoder_eq]
    refine (hasFault_ite ..).trans ?_
    rw [State.withPosition_modeCtl, encoderKind, hasFault_dropFault]
    simp [condition]
  have recovered : recoverEncoder .right (recoverEncoder .left (s.withPosition (recompute img s.position))) =
      (s.withPosition (positionAfter img s)).withModeCtl
        { s.modeCtl with
          active :=
            let afterLeft := if 8 ≤ s.position.left.goodRun ∧ condition .encL s = true then dropFault .encL s.modeCtl.active else s.modeCtl.active
            if 8 ≤ s.position.right.goodRun ∧ condition .encR s = true then dropFault .encR afterLeft else afterLeft } := by
    rw [recoverEncoder_eq .right, goodRunAfter]
    simp only [encoderKind, right]
    rw [recoverEncoder_eq .left]
    rfl
  change raise (positionFaults img (recoverEncoder .right _)) (clearTravel img (recoverEncoder .right _)) = _
  rw [recovered]
  unfold clearTravel conditionsAfter
  have mismatch : travelMismatch img (positionAfter img s) = travelMismatch img (recompute img s.position) := rfl
  simp only [State.withModeCtl_position, State.withPosition_position, mismatch]
  cases travelMismatch img (recompute img s.position) <;> rfl

theorem travelMismatch_iff {img : Image} {p : Position} :
    travelMismatch img p = true ↔ (p.upper = true ∧ p.opening + 200 < img.params.openMax) ∨ (p.lower = true ∧ 200 < p.opening) := by
  simp [travelMismatch]

/-- What an evaluation leaves active of the conditions it judges. -/
theorem hasFault_conditionsAfter (img : Image) (s : State) :
    hasFault .encL (conditionsAfter img s) = (condition .encL s && decide (s.position.left.goodRun < 8)) ∧
      hasFault .encR (conditionsAfter img s) = (condition .encR s && decide (s.position.right.goodRun < 8)) ∧
      hasFault .travel (conditionsAfter img s) = (condition .travel s && travelMismatch img (recompute img s.position)) := by
  have ended (k : FaultKind) (run : Nat) : (if 8 ≤ run ∧ condition k s = true then condition k s && !true else condition k s) =
      (condition k s && decide (run < 8)) := by
    by_cases long : 8 ≤ run
    · cases condition k s <;> simp [long]
    · simp [long, Nat.lt_of_not_le long]
  unfold conditionsAfter
  refine ⟨(Eq.trans ?_ (ended .encL _)), (Eq.trans ?_ (ended .encR _)), ?_⟩
  all_goals simp only [hasFault_ite, hasFault_dropFault, reduceCtorEq, decide_false, decide_true, Bool.not_false, Bool.not_true,
    Bool.and_true, Bool.and_false, ite_self]
  · rfl
  · rfl
  · cases travelMismatch img (recompute img s.position) <;> simp [condition]

theorem conditionsAfter_subset {img : Image} {s : State} (h : s.modeCtl.active &&& s.modeCtl.latched = s.modeCtl.active) :
    conditionsAfter img s &&& s.modeCtl.latched = conditionsAfter img s := by
  have dropped (q : Prop) [Decidable q] (k : FaultKind) {a : FaultSet} (within : a &&& s.modeCtl.latched = a) :
      (if q then dropFault k a else a) &&& s.modeCtl.latched = if q then dropFault k a else a := by
    split
    · exact subset_dropFault k within
    · exact within
  have stopped {a : FaultSet} (within : a &&& s.modeCtl.latched = a) :
      (if travelMismatch img (recompute img s.position) then a else dropFault .travel a) &&& s.modeCtl.latched =
        if travelMismatch img (recompute img s.position) then a else dropFault .travel a := by
    split
    · exact within
    · exact subset_dropFault _ within
  exact stopped (dropped _ _ (dropped _ _ h))

/-- A kind that is not of a move stays active through an entry into FAULT. -/
theorem hasFault_moveConditionsEnded {k : FaultKind} (f : FaultSet) (lasts : k ≠ .pump ∧ k ≠ .stall ∧ k ≠ .valveL ∧ k ≠ .valveR) :
    hasFault k (moveConditionsEnded f) = hasFault k f := by
  obtain ⟨pump, stall, left, right⟩ := lasts
  simp [hasFault_dropFault, pump, stall, left, right]

/-- Raised kinds are active, but for those of a move (R161). -/
theorem condition_raise {k : FaultKind} (ks : List FaultKind) (s : State) (lasts : k ≠ .pump ∧ k ≠ .stall ∧ k ≠ .valveL ∧ k ≠ .valveR) :
    condition k (raise ks s) = (condition k s || decide (k ∈ ks)) := by
  have latched : condition k (latchKinds ks s) = (condition k s || decide (k ∈ ks)) := by
    refine (hasFault_latchKinds_active k ks s).trans ?_
    cases active : condition k s with
    | true => simp only [condition] at active; simp [active]
    | false => simp only [condition] at active; simp [mem_becomingActive, active]
  unfold raise
  split
  · rw [enterMode_fault_eq]
    exact (hasFault_moveConditionsEnded _ lasts).trans latched
  · exact latched

/-- A kind that becomes active is latched (R160). -/
theorem latched_raise {k : FaultKind} {ks : List FaultKind} {s : State} (mem : k ∈ ks) (inactive : condition k s = false) :
    hasFault k (raise ks s).modeCtl.latched = true := by
  have latched : hasFault k (latchKinds ks s).modeCtl.latched = true := by
    rw [hasFault_latchKinds_latched, decide_eq_true (mem_becomingActive.mpr ⟨mem, inactive⟩), Bool.or_true]
  unfold raise
  split
  · rw [enterMode_fault_eq]
    exact latched
  · exact latched

/-- A raise touches mode, faults, claim, drive and plan alone. -/
theorem raise_frame (ks : List FaultKind) (s : State) :
    raise ks s = { s with
      modeCtl := (raise ks s).modeCtl, grant := (raise ks s).grant, drive := (raise ks s).drive, plan := (raise ks s).plan } := by
  unfold raise
  split
  · rw [enterMode_fault_eq]
    rfl
  · rfl

theorem mem_positionFaults {img : Image} {s : State} :
    (FaultKind.encL ∈ positionFaults img s ↔ 3 ≤ s.position.left.failRun) ∧ (FaultKind.encR ∈ positionFaults img s ↔ 3 ≤ s.position.right.failRun) ∧
      (FaultKind.travel ∈ positionFaults img s ↔ travelMismatch img s.position = true) := by
  simp [positionFaults, encoderFails]

/-- The events at which the second read of a tick ends. -/
theorem effect_secondRead {side other : Side} {raw : Half} {verifies : Bool} {s b : State} {i : Instr} {img : Image} {p : Position} {age : Nat}
    (serving : Serving s img) (ne : other ≠ side) (reads : (encoderOf side s.position).readTimer = some age)
    (ended : (encoderOf other s.position).readTimer = none)
    (ends : i = .encoderReply { side := side, later := 0 } raw verifies ∧ age ≤ 20 ∧ b = s ∧
        p = setEncoder side (repliedRead (condition (encoderKind side) s) raw.toNat verifies (encoderOf side s.position)) s.position ∨
      i = .replyWindow side ∧ b = elapse (20 - age) s ∧ p = setEncoder side (failedRead (encoderOf side s.position)) s.position) :
    effect i s = evaluatePosition img (b.withPosition p) := by
  obtain ⟨accepted, counts⟩ := serving
  rcases ends with ⟨rfl, inWindow, rfl, rfl⟩ | ⟨rfl, rfl, rfl⟩
  · rw [effect_of_accepted accepted rfl, takeReply_of_window reads inWindow]
    exact endRead_of_ended ne (repliedRead_readTimer ..) ended
  · rw [effect_of_accepted accepted rfl, closeWindow_of_reads counts reads, endRead_of_ended ne rfl, position_elapse_of_ended ne counts ended]
    rw [encoderOf_elapse other counts, ended]
    rfl

/-- What the two ended reads leave of the station before they are evaluated. -/
theorem secondRead_facts {side other : Side} {raw : Half} {verifies : Bool} {s b : State} {i : Instr} {p : Position} {age : Nat}
    (ne : other ≠ side) (ended : (encoderOf other s.position).readTimer = none)
    (ends : i = .encoderReply { side := side, later := 0 } raw verifies ∧ age ≤ 20 ∧ b = s ∧
        p = setEncoder side (repliedRead (condition (encoderKind side) s) raw.toNat verifies (encoderOf side s.position)) s.position ∨
      i = .replyWindow side ∧ b = elapse (20 - age) s ∧ p = setEncoder side (failedRead (encoderOf side s.position)) s.position) :
    b.modeCtl.active = s.modeCtl.active ∧ b.modeCtl.latched = s.modeCtl.latched ∧
      (p.left.readTimer = none ∧ p.right.readTimer = none) ∧ p.established = s.position.established ∧
      p.upperTaken = s.position.upperTaken ∧ p.lowerTaken = s.position.lowerTaken := by
  have set (e : EncoderSide) (none : e.readTimer = none) :
      ((setEncoder side e s.position).left.readTimer = Option.none ∧ (setEncoder side e s.position).right.readTimer = Option.none) ∧
        (setEncoder side e s.position).established = s.position.established ∧
        (setEncoder side e s.position).upperTaken = s.position.upperTaken ∧
        (setEncoder side e s.position).lowerTaken = s.position.lowerTaken := by
    cases side <;> cases other <;> first | exact absurd rfl ne | skip
    · exact ⟨⟨none, ended⟩, rfl, rfl, rfl⟩
    · exact ⟨⟨ended, none⟩, rfl, rfl, rfl⟩
  rcases ends with ⟨-, -, rfl, rfl⟩ | ⟨-, rfl, rfl⟩
  · exact ⟨rfl, rfl, set _ (repliedRead_readTimer ..)⟩
  · exact ⟨by rw [elapse_modeCtl], by rw [elapse_modeCtl], set _ rfl⟩

/-- The kinds of an evaluation, raised on the station whose reads it has evaluated, are raised on the station before. -/
theorem kindsRaised_evaluated {risen : List FaultKind} {b t v : State} {q : Position} {active : FaultSet}
    (moved : v = (b.withPosition q).withModeCtl { b.modeCtl with active := active }) (h : KindsRaised risen v t) : KindsRaised risen b t := by
  subst moved
  exact h

theorem kindsRaised_line {risen : List FaultKind} {b t : State} (l : Line) (h : KindsRaised risen b t) :
    KindsRaised risen b { t with line := l } := h

/-- Settles O9: the second read's end evaluates, and the evaluation raises what it finds. -/
theorem positionIsFormedFromBothReads : Obligations.PositionIsFormedFromBothReads := by
  intro side other raw verifies s b i img p age serving ne reads ended ends
  obtain ⟨active, latched, ⟨leftEnded, rightEnded⟩, established, upperTaken, lowerTaken⟩ := secondRead_facts ne ended ends
  have evaluates := (effect_secondRead serving ne reads ended ends).trans (evaluatePosition_eq ..)
  obtain ⟨v, moved⟩ : ∃ v, v = (b.withPosition (positionAfter img (b.withPosition p))).withModeCtl
    { b.modeCtl with active := conditionsAfter img (b.withPosition p) } := ⟨_, rfl⟩
  obtain ⟨faults, isFaults⟩ : ∃ faults, faults = positionFaults img v := ⟨_, rfl⟩
  have raises : effect i s = raise faults v := by rw [evaluates, isFaults, moved]; rfl
  obtain ⟨t, run, frame, reported⟩ := exec_of_effect raises
  have position : t.position = positionAfter img (b.withPosition p) := by rw [frame]; simp [moved]
  obtain ⟨judgedL, judgedR, judgedT⟩ := hasFault_conditionsAfter img (b.withPosition p)
  have before (k : FaultKind) : condition k (b.withPosition p) = condition k s := by simp only [condition, State.withPosition_modeCtl, active]
  have mismatch : travelMismatch img v.position = travelMismatch img (recompute img p) := by rw [moved]; rfl
  have judged (k : FaultKind) (lasts : k ≠ .pump ∧ k ≠ .stall ∧ k ≠ .valveL ∧ k ≠ .valveR) :
      condition k t = (hasFault k (conditionsAfter img (b.withPosition p)) || decide (k ∈ faults)) := by
    rw [frame]
    refine (condition_raise faults v lasts).trans ?_
    rw [moved]
    rfl
  obtain ⟨memL, memR, memT⟩ := mem_positionFaults (img := img) (s := v)
  rw [← isFaults] at memL memR memT
  have failL : v.position.left.failRun = p.left.failRun := by rw [moved]; rfl
  have failR : v.position.right.failRun = p.right.failRun := by rw [moved]; rfl
  rw [failL] at memL
  rw [failR] at memR
  rw [mismatch] at memT
  have agrees : travelMismatch img (recompute img p) = true ↔
      (t.position.upper = true ∧ t.position.opening + 200 < img.params.openMax) ∨ (t.position.lower = true ∧ 200 < t.position.opening) := by
    rw [position]
    exact travelMismatch_iff
  have beside : t = { b with
      position := t.position, modeCtl := t.modeCtl, grant := t.grant, drive := t.drive, plan := t.plan, line := t.line } := by
    rw [frame, raise_frame, moved]
    rfl
  rw [raise_line, moved] at reported
  refine ⟨t, run, by rw [position]; rfl, by rw [position]; rfl, ?_, by rw [position]; rfl, by rw [position]; rfl, by rw [position]; rfl,
    by rw [position]; exact leftEnded, by rw [position]; exact rightEnded, ?_, by rw [position]; exact upperTaken, by rw [position]; exact lowerTaken,
    by rw [position]; exact upperTaken, by rw [position]; exact lowerTaken, ?_, ?_, ?_, fun fails inactive => ?_, fun fails inactive => ?_,
    by rw [position]; exact ⟨rfl, rfl⟩, ?_, ?_, fun risen isRisen within => ?_, reported, beside⟩
  · rw [position]
    simp only [positionAfter, recompute]
    exact clampNat_zero ..
  · rw [position]
    simp only [positionAfter, recompute, State.withPosition_position, established]
    simp
  · rw [judged .travel (by decide), judgedT, State.withPosition_position, ← agrees]
    simp only [Bool.or_eq_true, Bool.and_eq_true, decide_eq_true_eq, memT]
    exact or_iff_right_of_imp And.right
  · rw [judged .encL (by decide), judgedL, before, State.withPosition_position]
    simp only [Bool.or_eq_true, Bool.and_eq_true, decide_eq_true_eq, memL]
    exact or_comm
  · rw [judged .encR (by decide), judgedR, before, State.withPosition_position]
    simp only [Bool.or_eq_true, Bool.and_eq_true, decide_eq_true_eq, memR]
    exact or_comm
  · rw [frame]
    refine latched_raise (memL.mpr fails) ?_
    rw [moved]
    exact judgedL.trans (by rw [before, inactive, Bool.false_and])
  · rw [frame]
    refine latched_raise (memR.mpr fails) ?_
    rw [moved]
    exact judgedR.trans (by rw [before, inactive, Bool.false_and])
  · rw [position, ← before]; rfl
  · rw [position, ← before]; rfl
  · have same : faults = risen := by
      rw [isRisen, isFaults, positionFaults]
      simp only [encoderFails, failL, failR, mismatch, decide_eq_true_eq, agrees]
    have subset : v.modeCtl.active &&& v.modeCtl.latched = v.modeCtl.active := by
      rw [moved]
      exact conditionsAfter_subset (s := b.withPosition p) (by rw [State.withPosition_modeCtl, active, latched, within])
    rw [frame, ← same]
    exact kindsRaised_line t.line (kindsRaised_evaluated moved (raise_raised faults subset))

end Sys2Proof.Proofs
end

section
/-! SUPPORT. The control tick to which a timer's row runs the time on, and the stop-class faults (O11). -/

namespace Sys2Proof.Proofs

open Sys2Proof.Machine Sys2Proof.Safety

/-! ### The tick of a timer's row -/

theorem tickAfter_eq (ahead remaining : Nat) (s : State) :
    tickAfter ahead remaining s = max (ahead + 60) (60 * ((s.clocks.tick + remaining + 59) / 60)) := by
  rw [Nat.mul_comm]
  rfl

/-- The timer has run out at that tick. -/
theorem tickAfter_reaches (ahead remaining : Nat) (s : State) : remaining ≤ tickAfter ahead remaining s - s.clocks.tick := by
  rw [tickAfter_eq]
  omega

/-- A timer that has counted through the time that was left to its limit. -/
theorem elapsed_runTimer {timer : Option Nat} {age limit dt : Nat} (runs : timer = some age) (enough : limit - age ≤ dt) :
    elapsed (runTimer dt timer) limit = true := by
  rw [runs]
  exact decide_eq_true (show limit ≤ age + dt by omega)

/-! ### The Grant Unit at that tick -/

/-- The station at the tick at which the Grant Unit evaluates (log 26). -/
def grantMoment (m : Nat) (s : State) : State := setGrantAhead m (runToTick m s)

theorem grantAtTick_eq (img : Image) (pumpReady : Bool) (remaining : Nat) (s : State) :
    grantAtTick img pumpReady remaining s = evalGrant img pumpReady (grantMoment (tickAfter s.clocks.grantAhead remaining s) s) := rfl

theorem grantMoment_admission (img : Image) (m : Nat) (s : State) : admission img (grantMoment m s) = admission img s := by
  unfold grantMoment runToTick elapse
  split <;> rfl

theorem grantMoment_yieldCount (m : Nat) (s : State) : yieldCount (grantMoment m s) = yieldCount s := by
  unfold grantMoment runToTick elapse
  split <;> rfl

theorem grantMoment_claimants (m : Nat) (s : State) : claimants (grantMoment m s) = claimants s := by
  unfold grantMoment runToTick elapse
  split <;> rfl

theorem grantMoment_target (m : Nat) (s : State) : (grantMoment m s).target = s.target := by
  unfold grantMoment runToTick elapse
  split <;> rfl

theorem grantMoment_grant {m : Nat} {s : State} (counts : s.loader.inReset = false) :
    (grantMoment m s).grant =
      { s.grant with
        announceTimer := runTimer (m - s.clocks.tick) s.grant.announceTimer
        warnTimer := runTimer (m - s.clocks.tick) s.grant.warnTimer
        pumpTimer := runTimer (m - s.clocks.tick) s.grant.pumpTimer } := elapse_grant _ s counts

theorem grantMoment_setpoint (m : Nat) (s : State) : (grantMoment m s).drive.setpoint = s.drive.setpoint := by
  unfold grantMoment runToTick elapse
  split <;> rfl

theorem grantMoment_modeCtl (m : Nat) (s : State) : (grantMoment m s).modeCtl = (elapse (m - s.clocks.tick) s).modeCtl := rfl

/-! ### A claim in WARN or MOVING -/

/-- A claim in WARN that goes on: off target, and of bypass or admitted with fewer than MOVE_LIMIT movers of lower key (R95). -/
def GoesOn (img : Image) (s : State) : Prop :=
  s.target.offTarget = true ∧
    (s.grant.moveKind = .bypass ∨ (admission img s = .throughGrant ∧ yieldCount s < img.params.moveLimit))

theorem evalWarn_of_goesOn {img : Image} {pumpReady : Bool} {s : State} (h : GoesOn img s) : evalWarn img pumpReady s = proceed img pumpReady s := by
  obtain ⟨off, h⟩ := h
  unfold evalWarn
  split
  · exact if_neg (by simp [off])
  · next granted =>
    obtain ⟨admits, few⟩ := h.resolve_left granted
    rw [if_neg (by simp [withdrawn, off, admits]), if_neg (Nat.not_le.mpr few)]

theorem goesOn_grantMoment {img : Image} {m : Nat} {s : State} (counts : s.loader.inReset = false) :
    GoesOn img (grantMoment m s) ↔ GoesOn img s := by
  unfold GoesOn
  rw [grantMoment_target, grantMoment_admission, grantMoment_yieldCount, grantMoment_grant counts]

theorem proceed_of_elapsed (img : Image) (pumpReady : Bool) {s : State} (leads : elapsed s.grant.warnTimer s.grant.warnLead = true) :
    proceed img pumpReady s = if pumpReady then enterMoving s else judgePump img (startPump s) := if_neg (by simp [leads])

theorem evalGrant_of_warn (img : Image) (pumpReady : Bool) {s : State} (warns : s.grant.moveState = .warn) :
    evalGrant img pumpReady s = evalWarn img pumpReady s := by simp only [evalGrant, warns]

theorem evalGrant_of_moving (img : Image) (pumpReady : Bool) {s : State} (moves : s.grant.moveState = .moving) :
    evalGrant img pumpReady s = evalMoving img pumpReady s := by simp only [evalGrant, moves]

/-- A pump timer that has reached PUMP_WAIT raises PUMP (R98). -/
theorem judgePump_of_elapsed {img : Image} {s : State} (waits : elapsed s.grant.pumpTimer (img.params.pumpWait * 1000) = true) :
    judgePump img (startPump s) = raise [.pump] s := by
  have runs : s.grant.pumpTimer.isNone = false := by
    cases timer : s.grant.pumpTimer with
    | none => rw [timer] at waits; cases waits
    | some t => rfl
  rw [startPump, if_neg (by simp [runs]), judgePump, if_pos waits]

/-- Whether PUMP_WAIT is judged of this claim: it goes on with its lead elapsed, or its move goes on (R97, R98). -/
def PumpJudged (img : Image) (s : State) : Prop :=
  s.grant.moveState = .warn ∧ s.target.offTarget = true ∧ (∃ w, s.grant.warnTimer = some w ∧ s.grant.warnLead ≤ w) ∧
      (s.grant.moveKind = .bypass ∨ (admission img s = .throughGrant ∧ yieldCount s < img.params.moveLimit)) ∨
    s.grant.moveState = .moving ∧ (s.target.offTarget = true ∨ s.drive.setpoint ≠ s.target.effective * 1000)

theorem effect_pumpWait {img : Image} {s : State} {age : Nat} (serving : Serving s img) (timer : s.grant.pumpTimer = some age)
    (judged : PumpJudged img s) :
    effect .pumpWait s = raise [.pump] (grantMoment (tickAfter s.clocks.grantAhead (img.params.pumpWait * 1000 - age) s) s) := by
  obtain ⟨accepted, counts⟩ := serving
  obtain ⟨m, tick⟩ : ∃ m, m = tickAfter s.clocks.grantAhead (img.params.pumpWait * 1000 - age) s := ⟨_, rfl⟩
  have evaluates : effect .pumpWait s = evalGrant img false (grantMoment m s) := by
    rw [effect_of_accepted accepted rfl, timer, tick]
    rfl
  have grant := grantMoment_grant (m := m) counts
  have waits : elapsed (grantMoment m s).grant.pumpTimer (img.params.pumpWait * 1000) = true := by
    rw [grant]
    exact elapsed_runTimer timer (tick ▸ tickAfter_reaches ..)
  rw [evaluates, ← tick]
  rcases judged with ⟨warns, off, ⟨w, leads, enough⟩, goesOn⟩ | ⟨moves, goesOn⟩
  · have lead : elapsed (grantMoment m s).grant.warnTimer (grantMoment m s).grant.warnLead = true := by
      rw [grant]
      exact elapsed_runTimer leads (show s.grant.warnLead - w ≤ m - s.clocks.tick by omega)
    rw [evalGrant_of_warn _ _ (by rw [grant, warns]), evalWarn_of_goesOn ((goesOn_grantMoment counts).mpr ⟨off, goesOn⟩),
      proceed_of_elapsed _ _ lead]
    exact judgePump_of_elapsed waits
  · have lasts : moveEnded (grantMoment m s) = false := by
      simp only [moveEnded, grantMoment_setpoint, grantMoment_target]
      rcases goesOn with off | differs
      · simp [off]
      · simp [differs]
    rw [evalGrant_of_moving _ _ (by rw [grant, moves]), evalMoving, if_neg (by simp [lasts])]
    exact judgePump_of_elapsed waits

/-! ### The Drive Unit at its tick -/

/-- The station at the tick at which the Drive Unit evaluates, whose readbacks are free values (log 37). -/
def driveMoment (m : Nat) (s : State) : State := countFreeSamples (setDriveAhead m (runToTick m s))

theorem driveAtTick_eq (img : Image) (remaining : Nat) (s : State) :
    driveAtTick img remaining s =
      evalDrive img (Config.freeReadback s.clocks.freeSamples) (Config.freeReadback (s.clocks.freeSamples + 1))
        (driveMoment (tickAfter s.clocks.driveAhead remaining s) s) := rfl

theorem driveMoment_position_opening (m : Nat) (s : State) :
    (driveMoment m s).position.opening = s.position.opening ∧ (driveMoment m s).position.skew = s.position.skew ∧
      (driveMoment m s).target = s.target := by
  unfold driveMoment runToTick elapse
  split <;> exact ⟨rfl, rfl, rfl⟩

theorem driveMoment_drive {m : Nat} {s : State} (counts : s.loader.inReset = false) :
    (driveMoment m s).drive = { s.drive with stall := s.drive.stall.map (fun w => { w with age := w.age + (m - s.clocks.tick) }) } := by
  unfold driveMoment runToTick elapse
  rw [if_neg (by simp [counts])]
  rfl

theorem freeSamples_elapse (dt : Nat) (s : State) : (elapse dt s).clocks.freeSamples = s.clocks.freeSamples := by
  unfold elapse
  split
  · rfl
  · dsimp only
    split <;> rfl

theorem mismatchRun_lt {tol code run : Nat} (conversion : Half) (few : run < 4) : mismatchRun tol code conversion run < 5 := by
  unfold mismatchRun countTo
  split
  · split <;> omega
  · omega

/-- With the skew within its limit and short mismatch runs the Drive Unit raises STALL alone, where the stall window runs out. -/
theorem driveFaults_stall {img : Image} {s : State} (skew : s.position.skew.natAbs ≤ img.params.skewTrip) (left : s.drive.runL < 5)
    (right : s.drive.runR < 5) : driveFaults img true s = [.stall] := by
  have within : skewBeyond img s = false := decide_eq_false (Nat.not_lt.mpr skew)
  simp [driveFaults, within, Nat.not_le.mpr left, Nat.not_le.mpr right]

/-- The base command of a gate that moves (R109, R110). -/
def baseFormed (img : Image) (s : State) : Int :=
  baseCommand img.params.kp
    (controlError (ramp s.drive.setpoint (s.target.effective * 1000) (speedOf img s.target.speed)) s.position.opening)

theorem driven_base (img : Image) (readbackL readbackR : Half) {s : State} (moves : s.grant.moveState = .moving) :
    (driven img readbackL readbackR s).drive.base = baseFormed img s := by
  rw [driven_of_moving _ _ _ moves]
  unfold driveMoving checkReadback
  split <;> rfl

theorem driven_runs (img : Image) (readbackL readbackR : Half) {s : State} (left : s.drive.runL < 4) (right : s.drive.runR < 4) :
    (driven img readbackL readbackR s).drive.runL < 5 ∧ (driven img readbackL readbackR s).drive.runR < 5 := by
  have checked : (checkReadback img readbackL readbackR s).drive.runL < 5 ∧ (checkReadback img readbackL readbackR s).drive.runR < 5 := by
    rw [checkReadback_drive]
    dsimp only
    constructor <;> split
    · exact mismatchRun_lt _ left
    · omega
    · exact mismatchRun_lt _ right
    · omega
  unfold driven
  rw [State.withDrive_drive]
  split <;> exact checked

theorem driven_frame (img : Image) (readbackL readbackR : Half) (s : State) :
    driven img readbackL readbackR s = s.withDrive (driven img readbackL readbackR s).drive := by
  unfold driven checkReadback
  split <;> rfl

/-- A base command that stays hard on a gate that has not moved for STALL_TIME (R114, R115). -/
def StallJudged (img : Image) (w : StallWindow) (s : State) : Prop :=
  300 ≤ (baseFormed img s).natAbs ∧ ((s.position.opening : Int) - w.startOpening).natAbs < 5 ∧ s.drive.runL < 4 ∧ s.drive.runR < 4 ∧
    s.position.skew.natAbs ≤ img.params.skewTrip

/-- What STALL is raised on: the gate driven at the tick, and SKEW ended. -/
theorem effect_stall {img : Image} {s : State} {w : StallWindow} (serving : Serving s img) (moves : s.grant.moveState = .moving)
    (window : s.drive.stall = some w) (judged : StallJudged img w s) :
    ∃ x, effect .stall s = raise [.stall] x ∧ x.modeCtl.mode = s.modeCtl.mode ∧ x.modeCtl.latched = s.modeCtl.latched ∧
      (x.modeCtl.active = s.modeCtl.active ∨ x.modeCtl.active = dropFault .skew s.modeCtl.active) ∧ x.grant.moveState = .moving ∧
      x = { driveMoment (tickAfter s.clocks.driveAhead (img.params.stallTime * 1000 - w.age) s) s with
            modeCtl := x.modeCtl, drive := x.drive } := by
  obtain ⟨accepted, counts⟩ := serving
  obtain ⟨hard, unmoved, runL, runR, level⟩ := judged
  obtain ⟨m, tick⟩ : ∃ m, m = tickAfter s.clocks.driveAhead (img.params.stallTime * 1000 - w.age) s := ⟨_, rfl⟩
  obtain ⟨u, moment⟩ : ∃ u, u = driveMoment m s := ⟨_, rfl⟩
  obtain ⟨rbL, rbR, evaluates⟩ : ∃ rbL rbR, effect .stall s = evalDrive img rbL rbR u := by
    refine ⟨Config.freeReadback s.clocks.freeSamples, Config.freeReadback (s.clocks.freeSamples + 1), ?_⟩
    rw [effect_of_accepted accepted rfl, moves, window, moment, tick]
    rfl
  obtain ⟨opening, skew, target⟩ := driveMoment_position_opening m s
  have drive := driveMoment_drive (m := m) counts
  rw [← moment] at opening skew target drive
  have modes : u.modeCtl = (elapse (m - s.clocks.tick) s).modeCtl := by rw [moment]; rfl
  have moving : u.grant.moveState = .moving := by
    rw [moment, ← moves]
    exact congrArg (·.moveState) (elapse_grant _ s counts)
  have base : baseFormed img u = baseFormed img s := by rw [baseFormed, drive, target, opening]; rfl
  have long : img.params.stallTime * 1000 - w.age ≤ m - s.clocks.tick := tick ▸ tickAfter_reaches ..
  have runsOut : ((checkReadback img rbL rbR u).grant.moveState == .moving &&
      stallRunsOut img (driven img rbL rbR u).drive.base u.position.opening (checkReadback img rbL rbR u).drive.stall) = true := by
    rw [checkReadback_grant, moving, driven_base _ _ _ moving, base, opening, checkReadback_drive, drive, window]
    have notSoft : ¬ (baseFormed img s).natAbs < 300 := by omega
    have still : ¬ 5 ≤ ((s.position.opening : Int) - w.startOpening).natAbs := by omega
    simp only [Option.map_some, stallRunsOut, notDrivenHard, hasMoved, notSoft, still, decide_false, Bool.or_false, Bool.not_false,
      Bool.true_and, beq_self_eq_true, decide_eq_true_eq]
    omega
  obtain ⟨left, right⟩ := driven_runs img rbL rbR (s := u) (by rw [drive]; exact runL) (by rw [drive]; exact runR)
  have faults : driveFaults img true (driven img rbL rbR u) = [.stall] := by
    refine driveFaults_stall ?_ left right
    rw [driven_frame, State.withDrive_position, skew]
    exact level
  rw [evalDrive_eq, runsOut, faults] at evaluates
  refine ⟨clearSkew img (driven img rbL rbR u), evaluates, ?_⟩
  rw [← tick, ← moment, driven_frame]
  unfold clearSkew
  split
  · refine ⟨?_, ?_, .inr ?_, moving, rfl⟩
    · change u.modeCtl.mode = _
      rw [modes, elapse_modeCtl]
    · change u.modeCtl.latched = _
      rw [modes, elapse_modeCtl]
    · change dropFault .skew u.modeCtl.active = _
      rw [modes, elapse_modeCtl]
  · refine ⟨?_, ?_, .inl ?_, moving, rfl⟩
    · change u.modeCtl.mode = _
      rw [modes, elapse_modeCtl]
    · change u.modeCtl.latched = _
      rw [modes, elapse_modeCtl]
    · change u.modeCtl.active = _
      rw [modes, elapse_modeCtl]

/-! ### The stop-class faults -/

theorem encoderKind_stops (d : Side) : isStopClass (encoderKind d) = true := by cases d <;> rfl

theorem valveKind_stops (d : Side) : isStopClass (valveKind d) = true := by cases d <;> rfl

/-- Settles O11: each row raises its one kind, which ends the mode. -/
theorem stopClassFaultsTakeStationToFault : Obligations.StopClassFaultsTakeStationToFault := by
  intro s img serving serves free subset
  obtain ⟨accepted, counts⟩ := serving
  have unlatched {k : FaultKind} (stop : isStopClass k = true) : hasFault k s.modeCtl.latched = false := hasStopClass_eq_false.mp free k stop
  have inactive {k : FaultKind} (stop : isStopClass k = true) : condition k s = false := stopClass_inactive stop free subset
  refine ⟨fun side fails => ?_, fun side runs => ?_, fun age m b timer judged tick moment => ?_,
    fun w m b base moves window formed hard unmoved runL runR level tick moment => ?_⟩
  · have stop := encoderKind_stops side
    have raises : effect (.encFault side) s = raise [encoderKind side] s := by
      rw [effect_of_accepted accepted rfl]
      exact if_pos (decide_eq_true fails)
    obtain ⟨t, run, stands, frame, latched, active, -⟩ := exec_raises_stop raises stop serves (inactive stop) (unlatched stop)
    refine ⟨t, run, stands, frame, latched, ?_⟩
    rw [condition, active, hasFault_moveConditionsEnded _ (by cases side <;> decide), hasFault_addFault]
    simp
  · have stop := valveKind_stops side
    have raises : effect (.valveMismatch side) s = raise [valveKind side] s := by
      rw [effect_of_accepted accepted rfl]
      exact if_pos runs
    obtain ⟨t, run, stands, frame, latched, active, -⟩ := exec_raises_stop raises stop serves (inactive stop) (unlatched stop)
    refine ⟨t, run, stands, frame, latched, ?_⟩
    rw [condition, active]
    cases side <;> simp [valveKind]
  · have raises := effect_pumpWait ⟨accepted, counts⟩ timer judged
    rw [tickAfter_eq, ← tick] at raises
    have modes : (grantMoment m s).modeCtl.mode = s.modeCtl.mode := by rw [grantMoment_modeCtl, elapse_modeCtl]
    have latchedBefore : (grantMoment m s).modeCtl.latched = s.modeCtl.latched := by rw [grantMoment_modeCtl, elapse_modeCtl]
    obtain ⟨t, run, stands, frame, latched, active, -⟩ := exec_raises_stop raises rfl (by rw [modes, serves])
      ((condition_elapse ..).trans (inactive rfl)) (by rw [latchedBefore]; exact unlatched rfl)
    refine ⟨t, run, stands, ?_, by rw [latched, latchedBefore], ?_⟩
    · rw [moment]
      exact frame
    · rw [condition, active]
      simp
  · have judgedSo : StallJudged img w s := ⟨by rw [formed] at hard; exact hard, unmoved, runL, runR, level⟩
    obtain ⟨x, raises, mode, latchedBefore, activeBefore, moving, beside⟩ := effect_stall ⟨accepted, counts⟩ moves window judgedSo
    have quiet : condition .stall x = false := by
      have before := inactive (k := .stall) rfl
      rw [condition] at before ⊢
      rcases activeBefore with same | dropped
      · rw [same, before]
      · rw [dropped, hasFault_dropFault, before, Bool.false_and]
    obtain ⟨t, run, stands, frame, latched, active, ended⟩ :=
      exec_raises_stop raises rfl (by rw [mode, serves]) quiet (by rw [latchedBefore]; exact unlatched rfl)
    refine ⟨t, run, stands, ?_, by rw [latched, latchedBefore], ?_, by rw [ended, if_pos moving]⟩
    · rw [tickAfter_eq, ← tick] at beside
      rw [beside] at frame
      rw [moment, ← freeSamples_elapse (m - s.clocks.tick) s]
      exact frame
    · rw [condition, active]
      simp

end Sys2Proof.Proofs
end

section
/-! SUPPORT. A station in START, and the image that is rejected (O6). -/

namespace Sys2Proof.Proofs

open Sys2Proof.Machine Sys2Proof.Safety

/-! ### START -/

/-- A station in START on whose line no change of level is held. -/
def WaitsInStart (t : State) : Prop := InStart t ∧ t.line.changes = []

/-- What START says looks at no clock, at no count of attempts and at no queue. -/
theorem WaitsInStart.congr {s t : State} (h : WaitsInStart s) (position : t.position = s.position) (level : t.level = s.level)
    (tide : t.tide = s.tide) (peers : t.peers = s.peers) (adopted : t.order.adopted = s.order.adopted)
    (answered : t.order.lastCommand = s.order.lastCommand) (deferred : t.order.deferred = s.order.deferred) (target : t.target = s.target)
    (grant : t.grant = s.grant) (drive : t.drive = s.drive) (plan : t.plan = s.plan) (modes : t.modeCtl = s.modeCtl)
    (line : LineAtReset s.peers t.line s.loader.cause ∧ t.line.changes = []) (cause : t.loader.cause = s.loader.cause)
    (image : t.loader.image = s.loader.image) : WaitsInStart t := by
  obtain ⟨⟨atPosition, atRiver, ⟨noOrder, noAnswer, notDeferred⟩, atTarget, atGrant, atDrive, atPlan, atMode, -, unread⟩, -⟩ := h
  refine ⟨⟨position ▸ atPosition, ?_, ⟨adopted.trans noOrder, answered.trans noAnswer, deferred.trans notDeferred⟩, target ▸ atTarget,
    grant ▸ atGrant, drive ▸ atDrive, plan ▸ atPlan, modes ▸ atMode, ?_, image.trans unread⟩, line.2⟩
  · rw [level, tide]
    exact atRiver
  · rw [peers, cause]
    exact line.1

theorem WaitsInStart.withLoader {s : State} {l : Loader} (h : WaitsInStart s) (cause : l.cause = s.loader.cause)
    (image : l.image = s.loader.image) : WaitsInStart (s.withLoader l) :=
  h.congr rfl rfl rfl rfl rfl rfl rfl rfl rfl rfl rfl rfl ⟨h.1.2.2.2.2.2.2.2.2.1, h.2⟩ cause image

theorem runTimer_stopped {t : Option Nat} (dt : Nat) (stopped : t = none) : runTimer dt t = t := by
  rw [stopped]
  rfl

/-- In START nothing runs but what counts time. -/
theorem WaitsInStart.elapse {s : State} (dt : Nat) (h : WaitsInStart s) : WaitsInStart (elapse dt s) := by
  cases counts : s.loader.inReset with
  | true => rwa [elapse_of_reset counts]
  | false =>
    obtain ⟨⟨⟨⟨-, -, -, -, leftTimer⟩, ⟨-, -, -, -, rightTimer⟩, -⟩, -, -, -, ⟨-, -, -, announce, warn, pump, -⟩, ⟨-, -, -, -, -, -, -, -, stall⟩, -,
      ⟨-, -, -, -, -, -, -, clear, -⟩, ⟨rows, duplicate, state, tide, sends, errors, txTimer, run, silent, report, gap, mark, cause⟩, unread⟩,
      quiet⟩ := id h
    have unaccepted : isAccepted s = false := by simp [isAccepted, acceptedImage_of_unread unread]
    have line : (Machine.elapse dt s).line = { s.line with gapTimer := s.line.gapTimer + dt } := by
      rw [elapse_line counts, quiet, takeChanges]
      simp only [runLevel, runTimer_stopped dt run, runTimer_stopped dt txTimer, runTimer_stopped dt report, unaccepted, ite_self,
        Bool.false_eq_true, if_false]
      rw [← quiet]
    refine h.congr ?_ (by simp) (by simp) ?_ (elapse_adopted ..) ?_ (elapse_deferred ..) (by simp) ?_ ?_ (by simp) ?_ ?_ ?_
      (elapse_image ..)
    · unfold Machine.elapse
      rw [if_neg (by simp [counts])]
      simp only [runTimer_stopped dt leftTimer, runTimer_stopped dt rightTimer]
    · unfold Machine.elapse
      rw [if_neg (by simp [counts])]
      simp only [runTimer_stopped dt duplicate]
    · unfold Machine.elapse
      split <;> rfl
    · rw [elapse_grant _ _ counts]
      simp only [runTimer_stopped dt announce, runTimer_stopped dt warn, runTimer_stopped dt pump]
    · unfold Machine.elapse
      have unopened : s.drive.stall.map (fun w => { w with age := w.age + dt }) = s.drive.stall := by
        rw [stall]
        rfl
      rw [if_neg (by simp [counts])]
      simp only [unopened]
    · rw [elapse_modeCtl]
      simp only [runTimer_stopped dt clear, ite_self]
    · rw [line]
      exact ⟨⟨rows, duplicate, state, tide, sends, errors, txTimer, run, silent, report, Nat.le_add_right_of_le gap, mark, cause⟩, quiet⟩
    · unfold Machine.elapse
      split <;> rfl

theorem waitsInStart_afterReset {t : State} (h : AfterReset t) : WaitsInStart t := by
  obtain ⟨cause, lasts, straps, queue, rfl⟩ := h
  exact ⟨(atReset_initial cause lasts straps queue).1, rfl⟩

/-! ### The image rejected -/

/-- A station in START whose image is rejected (R160, R161, R182): CONFIG alone, and FAULT. -/
theorem rejectImage_of_start {s : State} (modes : ModeAtReset s.modeCtl) (grant : GrantAtReset s.grant) :
    rejectImage s =
      { s with
        loader := { s.loader with image := .rejected }
        modeCtl :=
          { s.modeCtl with
            mode := .fault, relay := false, stormClear := none, active := onlyFault .config, latched := onlyFault .config
            firstFault := some { kind := .config, day := s.order.clockDay, ms := s.order.clockMs } }
        grant := claimStill s.grant } := by
  obtain ⟨mode, -, -, -, -, -, -, -, -, active, latched, -, -⟩ := modes
  obtain ⟨still, -⟩ := grant
  have latches : latchKinds [.config] (s.withLoader { s.loader with image := .rejected }) =
      (s.withLoader { s.loader with image := .rejected }).withModeCtl
        { s.modeCtl with
          active := onlyFault .config, latched := onlyFault .config
          firstFault := some { kind := .config, day := s.order.clockDay, ms := s.order.clockMs } } := by
    have rises := latchKinds_of_inactive (k := .config) (s := s.withLoader { s.loader with image := .rejected })
      (by simp [condition, active])
    rw [rises]
    simp only [raisedModes, State.withLoader_modeCtl, State.withLoader_order, active, latched, if_true]
    rfl
  rw [rejectImage, latches, enterMode_fault_eq]
  have ended : moveConditionsEnded (onlyFault .config) = onlyFault .config := by decide
  simp only [State.withModeCtl_modeCtl, State.withModeCtl_grant, State.withLoader_grant, State.withModeCtl_drive, State.withLoader_drive,
    State.withModeCtl_plan, State.withLoader_plan, still, mode, ended, reduceCtorEq, if_false]
  rfl

/-- The two events that reject an image: other nodes may have changed the level of the line. -/
theorem effect_rejects {s : State} {i : Instr} (reading : s.loader.reading = true)
    (event : i = .imageReadFailed ∧ s.loader.attempts = 3 ∨
      ∃ bytes inputs up dn, i = .imageReadComplete bytes inputs up dn ∧ bytes.length = 2048 ∧ checkedImage s.loader.strap bytes = none) :
    ∃ idle run changes, effect i s =
      rejectImage ((attempted s).withLine { s.line with idle := idle, dominantRun := run, changes := changes }) := by
  rcases event with ⟨rfl, third⟩ | ⟨bytes, inputs, up, dn, rfl, whole, fails⟩
  · refine ⟨s.line.idle, s.line.dominantRun, s.line.changes, ?_⟩
    simp only [effect, failAttempt_eq]
    rw [if_pos reading, if_neg (by omega)]
    rfl
  · have line := takeChanges_eq 0 inputs.line s.line
    refine ⟨(takeChanges 0 inputs.line s.line).idle, (takeChanges 0 inputs.line s.line).dominantRun,
      (takeChanges 0 inputs.line s.line).changes, ?_⟩
    simp only [effect]
    rw [completeRead_of_reading reading whole, fails, ← line]
    rfl

theorem rejectImage_loader (s : State) : (rejectImage s).loader = { s.loader with image := .rejected } := by simp [rejectImage]

theorem evalTick_loader (img : Image) (inputs : TickInputs) (s : State) : (evalTick img inputs s).loader = s.loader :=
  evalTick_keeps (P := fun t => t.loader = s.loader) rfl fun b t h => (evalBlock_loader img inputs b t).trans h

theorem acceptImage_loader (img : Image) (inputs : TickInputs) (up dn : Half) (s : State) :
    (acceptImage img inputs up dn s).loader = { s.loader with image := .accepted img } := by
  simp [acceptImage, evalTick_loader, holdImage]

/-- A step that leaves the image unread leaves the station waiting in START. -/
theorem step_waitsInStart {s t : State} (h : WaitsInStart s) (run : step s = .next t) (unread : t.loader.image = .unread) : WaitsInStart t := by
  unfold step at run
  split at run
  · rw [← Host.Outcome.next.inj run]
    exact h.elapse 1
  · next i rest _ =>
    have unreadBefore : (s.withPending rest).loader.image = .unread := h.1.2.2.2.2.2.2.2.2.2
    have h : WaitsInStart (s.withPending rest) := h
    rw [exec_eq_next run] at unread ⊢
    have image : (effect i (s.withPending rest)).loader.image = .unread := by rwa [concludeEvent_loader] at unread
    rw [concludeEvent_of_not_lineWorks _ (lineWorks_of_unread image)]
    generalize s.withPending rest = s at *
    by_cases isReset : IsReset i
    · cases isReset with
      | powerOn supply => exact waitsInStart_afterReset (afterReset_beginReset supply _)
      | restart source target argument tag straps =>
        have stays : effect (.restart source target argument tag straps) s = s :=
          arrival_of_not_receiving source _ (receiving_of_not_lineWorks (lineWorks_of_unread unreadBefore))
        rwa [stays]
    by_cases isImage : IsImageEvent i
    · cases isImage with
      | resetEnd straps =>
        simp only [effect, endReset]
        split
        · exact waitsInStart_afterReset ⟨_, _, _, _, rfl⟩
        · exact h
      | failed =>
        simp only [effect, failAttempt_eq] at image ⊢
        split
        · next reading =>
          rw [if_pos reading] at image
          split
          · exact h.withLoader rfl rfl
          · next last =>
            rw [if_neg last, rejectImage_loader] at image
            cases image
        · exact h
      | retry =>
        simp only [effect, beginRetry]
        split
        · exact h
        · exact (h.elapse _).withLoader rfl rfl
      | complete bytes inputs up dn =>
        simp only [effect] at image ⊢
        rcases completeRead_cases bytes inputs up dn s with stays | ⟨reading, rejected | ⟨img, accepted⟩⟩
        · rwa [stays]
        · rw [rejected, rejectImage_loader] at image
          cases image
        · rw [accepted, acceptImage_loader] at image
          cases image
    · rcases effect_of_unread unreadBefore isReset isImage with stays | ⟨dt, runsOn⟩
      · rwa [stays]
      · rw [runsOn]; exact h.elapse dt

/-- Where a change of R43 ends an event with the gap over and no STATE on the line, the STATE of that moment is built (R43, R44). -/
theorem exec_reports {i : Instr} {s u : State} (h : effect i s = u) (works : lineWorks u = true) (silent : u.line.sending = none)
    (gap : 50 ≤ u.line.gapTimer) (changes : reportedChange s u = true) :
    ∃ t f, exec i s = .next t ∧ t = { u with line := t.line } ∧ Reported u.line t.line ∧ t.line.stateSlot = some f ∧ CarriesState f t := by
  obtain ⟨m, marked⟩ : ∃ m, m = markChanges s u := ⟨_, rfl⟩
  have line : m = u.withLine { u.line with mark := true } := by rw [marked, markChanges, works, changes, Bool.and_true, Bool.or_true]
  have due : reportDue m = true := by
    have worksM : lineWorks m = true := by rw [line]; exact works
    have past : gapOver m = true := by
      rw [line]
      exact decide_eq_true gap
    have free : sendingState m = false := by simp [sendingState, line, silent]
    have mark : m.line.mark = true := by rw [line]; rfl
    simp only [reportDue, worksM, free, mark, past, Bool.not_false, Bool.and_true, Bool.true_or]
  have ends : exec i s = .next (serveReports m) := by rw [exec_eq_effect, h, concludeEvent, marked]
  have built := serveReports_of_due due
  refine ⟨_, buildState m, ends, ?_, ?_, by rw [built], ?_⟩
  · rw [built, line]
    rfl
  · rw [built, line]
    rfl
  · rw [built]
    exact carriesState_withLine (carriesState_buildState m) rfl rfl

/-- Settles O6: START by the step, and the rejection by the mark of the mode's change. -/
theorem rejectedImageFaults : Obligations.RejectedImageFaults := by
  refine ⟨fun s t start quiet run unread => step_waitsInStart ⟨start, quiet⟩ run unread, fun s i start counts reading event => ?_⟩
  obtain ⟨-, -, -, -, grant, -, -, modes, ⟨-, -, -, -, silent, -, -, -, -, -, gap, -, cause⟩, unread⟩ := start
  obtain ⟨idle, run, changes, rejects⟩ := effect_rejects reading event
  rw [rejectImage_of_start (s := (attempted s).withLine _) modes grant] at rejects
  have mode : s.modeCtl.mode = .start := modes.1
  obtain ⟨t, f, runs, frame, reported, slot, carries⟩ := exec_reports rejects (by simp [lineWorks, attempted, counts]) silent gap
    (by simp [reportedChange, mode])
  have causeKept : t.line.causeToCarry = some s.loader.cause := by rw [reported]; exact cause
  refine ⟨t, f, runs, ?_, ?_, ?_, ?_, ?_, slot, carries, ?_, ?_, ?_, ?_⟩
  · rw [frame]; rfl
  · rw [frame]
    exact ⟨rfl, rfl, rfl, rfl, rfl, rfl, rfl, rfl, rfl, rfl, rfl⟩
  · rw [frame]
  · rw [frame]
  · rw [frame]; rfl
  · rw [carries.1.1, frame]
  · obtain ⟨-, -, -, -, -, -, -, -, -, ⟨-, latched, -⟩, -⟩ := carries
    rw [latched, frame]
  · obtain ⟨-, -, -, -, -, -, -, -, -, -, -, -, -, -, carried⟩ := carries
    rw [carried, causeKept]
    cases s.loader.cause <;> rfl
  · rw [frame]
    rfl

end Sys2Proof.Proofs
end

section
/-! SUPPORT. The bytes of a frame and its bits (O42 to O44). -/

namespace Sys2Proof.Proofs

open Sys2Proof.Machine Sys2Proof.Safety

/-! ### Fields -/

theorem byteAt_of_byte {p : List Byte} {i n : Nat} (byte : p.getD i 0 = byteOf n) (fits : n < 256) : byteAt p i = n := by
  rw [byteAt, byte, byteOf_toNat, Nat.mod_eq_of_lt fits]

theorem half_of_bytes {p : List Byte} {i n : Nat} (high : p.getD i 0 = byteOf (n / 256)) (low : p.getD (i + 1) 0 = byteOf n)
    (fits : n < 65536) : half p i = n := by
  rw [half, byteAt, byteAt, high, low, byteOf_toNat, byteOf_toNat]
  omega

theorem word_of_bytes {p : List Byte} {i n : Nat} (b3 : p.getD i 0 = byteOf (n / 16777216)) (b2 : p.getD (i + 1) 0 = byteOf (n / 65536))
    (b1 : p.getD (i + 2) 0 = byteOf (n / 256)) (b0 : p.getD (i + 3) 0 = byteOf n) (fits : n < 4294967296) : word p i = n := by
  simp only [word, half, byteAt, b3, b2, b1, b0, byteOf_toNat]
  omega

/-- Two's complement of two bytes gives a signed value back. -/
theorem toInt_half {x : Int} (low : -32768 ≤ x) (high : x < 32768) : (BitVec.ofNat 16 (BitVec.ofInt 16 x).toNat).toInt = x := by
  rw [BitVec.ofNat_toNat, BitVec.setWidth_eq, BitVec.toInt_ofInt, Int.bmod]
  omega

/-- Two's complement of four bytes gives a signed value back. -/
theorem toInt_word {x : Int} (low : -2147483648 ≤ x) (high : x < 2147483648) : (BitVec.ofNat 32 (BitVec.ofInt 32 x).toNat).toInt = x := by
  rw [BitVec.ofNat_toNat, BitVec.setWidth_eq, BitVec.toInt_ofInt, Int.bmod]
  omega

/-- The word of a level field, its marker included. -/
def levelWord : Option Int → Nat
  | none => 0x80000000
  | some x => (BitVec.ofInt 32 x).toNat

theorem levelBytes_eq (x : Option Int) : levelBytes x = bytes4 (levelWord x) := by cases x <;> rfl

/-- The half of a head field, its marker included. -/
def headHalf : Option Int → Nat
  | none => 0x8000
  | some x => (BitVec.ofInt 16 x).toNat

theorem headBytes_eq (x : Option Int) : headBytes x = bytes2 (headHalf x) := by cases x <;> rfl

theorem levelWord_lt (x : Option Int) : levelWord x < 4294967296 := by
  cases x with
  | none => decide
  | some x => exact (BitVec.ofInt 32 x).isLt

theorem headHalf_lt (x : Option Int) : headHalf x < 65536 := by
  cases x with
  | none => decide
  | some x => exact (BitVec.ofInt 16 x).isLt

/-- A level that fits its field is read back: no value has the word of the marker. -/
theorem levelOf_levelWord {p : List Byte} {i : Nat} {x : Option Int} (reads : word p i = levelWord x) (fits : FitsSigned 2147483648 x) :
    levelOf p i = x := by
  cases x with
  | none => exact if_pos reads
  | some v =>
    obtain ⟨low, high⟩ := fits v rfl
    have value := toInt_word (Int.le_of_lt low) high
    have notMarker : (BitVec.ofInt 32 v).toNat ≠ 0x80000000 := by
      intro marker
      rw [marker] at value
      have : (BitVec.ofNat 32 0x80000000).toInt = -2147483648 := by decide
      omega
    rw [levelOf, reads, signedWord, reads]
    exact (if_neg notMarker).trans (congrArg some value)

theorem headOf_headHalf {p : List Byte} {i : Nat} {x : Option Int} (reads : half p i = headHalf x) (fits : FitsSigned 32768 x) :
    headOf p i = x := by
  cases x with
  | none => exact if_pos reads
  | some v =>
    obtain ⟨low, high⟩ := fits v rfl
    have value := toInt_half (Int.le_of_lt low) high
    have notMarker : (BitVec.ofInt 16 v).toNat ≠ 0x8000 := by
      intro marker
      rw [marker] at value
      have : (BitVec.ofNat 16 0x8000).toInt = -32768 := by decide
      omega
    rw [headOf, reads, signedHalf, reads]
    exact (if_neg notMarker).trans (congrArg some value)

theorem flagOf_flagByte (fs : List Bool) (i : Nat) : flagOf (flagByte fs) i = fs.getD i false := by
  induction fs generalizing i with
  | nil => simp [flagByte, flagOf]
  | cons f fs ih =>
    have value : flagByte (f :: fs) = f.toNat + 2 * flagByte fs := rfl
    cases i with
    | zero => cases f <;> simp [flagOf, value, Nat.testBit_zero]
    | succ i =>
      have rest : (f.toNat + 2 * flagByte fs) / 2 = flagByte fs := by
        have := Bool.toNat_le f
        omega
      rw [flagOf, value, Nat.testBit_succ, rest]
      exact ih i

/-! ### Codes -/

theorem modeOfCode_modeCode (m : Mode) : modeOfCode (byteOf (modeCode m)).toNat = some m := by cases m <;> rfl
theorem moveStateOfCode_moveStateCode (m : MoveState) : moveStateOfCode (byteOf (moveStateCode m)).toNat = some m := by cases m <;> rfl
theorem planStateOfCode_planStateCode (p : PlanState) : planStateOfCode (byteOf (planStateCode p)).toNat = some p := by cases p <;> rfl
theorem windowOfCode_windowCode (w : Window) : windowOfCode (byteOf (windowCode w)).toNat = some w := by cases w <;> rfl
theorem tideKindOfCode_tideKindCode (k : TideKind) : tideKindOfCode (byteOf (tideKindCode k)).toNat = some k := by cases k <;> rfl
theorem tideOriginOfCode_tideOriginCode (o : TideOrigin) : tideOriginOfCode (byteOf (tideOriginCode o)).toNat = some o := by cases o <;> rfl

/-! ### The STATE payload -/

/-- The 55 bytes of a STATE payload (R187). -/
theorem statePayload_eq (f : StateFrame) :
    statePayload f =
      [byteOf (modeCode f.mode), byteOf (moveStateCode f.moveState), byteOf (f.ticket / 256), byteOf f.ticket, byteOf (stateFlags f),
        byteOf (planStateCode f.planState), byteOf f.planNumber, byteOf f.stepIndex, byteOf (f.opening / 256), byteOf f.opening,
        byteOf ((BitVec.ofInt 16 f.skew).toNat / 256), byteOf (BitVec.ofInt 16 f.skew).toNat, byteOf (f.effective / 256),
        byteOf f.effective, byteOf (f.unclamped / 256), byteOf f.unclamped, byteOf (levelWord f.upLevel / 16777216),
        byteOf (levelWord f.upLevel / 65536), byteOf (levelWord f.upLevel / 256), byteOf (levelWord f.upLevel),
        byteOf (levelWord f.dnLevel / 16777216), byteOf (levelWord f.dnLevel / 65536), byteOf (levelWord f.dnLevel / 256),
        byteOf (levelWord f.dnLevel), byteOf (flagByte [f.upOwn, f.dnOwn]), byteOf (windowCode f.window),
        byteOf (f.orderNumber / 16777216), byteOf (f.orderNumber / 65536), byteOf (f.orderNumber / 256), byteOf f.orderNumber,
        byteOf f.orderOrigin, byteOf f.orderKind, byteOf (f.orderValue / 256), byteOf f.orderValue, byteOf f.orderPlan,
        byteOf (f.orderMask.toNat / 256), byteOf f.orderMask.toNat, byteOf (orderFlags f.halt f.storm f.tideLock f.restartPlan),
        byteOf (f.reportPeriod / 256), byteOf f.reportPeriod, byteOf (f.latched.toNat / 256), byteOf f.latched.toNat,
        byteOf f.firstKind, byteOf (f.firstDay / 256), byteOf f.firstDay, byteOf (f.firstMs / 16777216), byteOf (f.firstMs / 65536),
        byteOf (f.firstMs / 256), byteOf f.firstMs, byteOf f.commandSource, byteOf f.commandTag, byteOf f.commandCode,
        byteOf f.commandResult, byteOf f.errors, byteOf f.cause] := by
  unfold statePayload
  rw [levelBytes_eq, levelBytes_eq]
  simp only [signedBytes2]
  unfold bytes2 bytes4
  simp only [List.cons_append, List.nil_append]

/-- A payload of 55 bytes whose four codes stand in their tables is read field by field (R174, R187). -/
theorem stateOfPayload_of_codes {p : List Byte} {mode : Mode} {moveState : MoveState} {planState : PlanState} {window : Window}
    (whole : p.length = 55) (modeRead : modeOfCode (byteAt p 0) = some mode) (moveRead : moveStateOfCode (byteAt p 1) = some moveState)
    (planRead : planStateOfCode (byteAt p 5) = some planState) (windowRead : windowOfCode (byteAt p 25) = some window) :
    stateOfPayload p =
      some
        { mode := mode, moveState := moveState, ticket := half p 2,
          bypass := flagOf (byteAt p 4) 0, available := flagOf (byteAt p 4) 1, isolated := flagOf (byteAt p 4) 2,
          limited := flagOf (byteAt p 4) 3, shareUnmet := flagOf (byteAt p 4) 4, tideBlind := flagOf (byteAt p 4) 5,
          alone := flagOf (byteAt p 4) 6, stormPending := flagOf (byteAt p 4) 7,
          planState := planState, planNumber := byteAt p 6, stepIndex := byteAt p 7, opening := half p 8, skew := signedHalf p 10,
          effective := half p 12, unclamped := half p 14, upLevel := levelOf p 16, dnLevel := levelOf p 20,
          upOwn := flagOf (byteAt p 24) 0, dnOwn := flagOf (byteAt p 24) 1, window := window,
          orderNumber := word p 26, orderOrigin := byteAt p 30, orderKind := byteAt p 31, orderValue := half p 32,
          orderPlan := byteAt p 34, orderMask := BitVec.ofNat 16 (half p 35),
          halt := flagOf (byteAt p 37) 0, storm := flagOf (byteAt p 37) 1, tideLock := flagOf (byteAt p 37) 2,
          restartPlan := flagOf (byteAt p 37) 3,
          reportPeriod := half p 38, latched := BitVec.ofNat 16 (half p 40), firstKind := byteAt p 42, firstDay := half p 43,
          firstMs := word p 45, commandSource := byteAt p 49, commandTag := byteAt p 50, commandCode := byteAt p 51,
          commandResult := byteAt p 52, errors := byteAt p 53, cause := byteAt p 54 } := by
  simp only [stateOfPayload, whole, modeRead, moveRead, planRead, windowRead, if_true]

/-- The codes of a STATE payload stand in their tables. -/
theorem statePayload_codes (f : StateFrame) :
    modeOfCode (byteAt (statePayload f) 0) = some f.mode ∧ moveStateOfCode (byteAt (statePayload f) 1) = some f.moveState ∧
      planStateOfCode (byteAt (statePayload f) 5) = some f.planState ∧ windowOfCode (byteAt (statePayload f) 25) = some f.window := by
  rw [statePayload_eq]
  exact ⟨modeOfCode_modeCode f.mode, moveStateOfCode_moveStateCode f.moveState, planStateOfCode_planStateCode f.planState,
    windowOfCode_windowCode f.window⟩

theorem stateOfPayload_isSome (f : StateFrame) : (stateOfPayload (statePayload f)).isSome = true := by
  obtain ⟨mode, moveState, planState, window⟩ := statePayload_codes f
  rw [stateOfPayload_of_codes (statePayload_length f) mode moveState planState window]
  rfl

theorem stateFlags_lt (f : StateFrame) : stateFlags f < 256 := by
  exact (flagByte_lt _).trans_le (show 2 ^ 8 ≤ 256 by decide)

theorem orderFlags_lt (halt storm tideLock restartPlan : Bool) : orderFlags halt storm tideLock restartPlan < 256 :=
  (flagByte_lt _).trans_le (show 2 ^ 4 ≤ 256 by decide)

/-- What a receiver reads from the bytes of a STATE is what the station put in (R187). -/
theorem stateOfPayload_statePayload {f : StateFrame} (fits : StateFits f) : stateOfPayload (statePayload f) = some f := by
  obtain ⟨ticket, planNumber, stepIndex, opening, skewLow, skewHigh, effective, unclamped, upLevel, dnLevel, orderNumber, orderOrigin, orderKind,
    orderValue, orderPlan, reportPeriod, firstKind, firstDay, firstMs, commandSource, commandTag, commandCode, commandResult, errors, cause⟩ := fits
  obtain ⟨mode, moveState, planState, window⟩ := statePayload_codes f
  rw [stateOfPayload_of_codes (statePayload_length f) mode moveState planState window]
  have bytes := statePayload_eq f
  generalize statePayload f = p at bytes
  have flags : byteAt p 4 = stateFlags f := byteAt_of_byte (by rw [bytes]; rfl) (stateFlags_lt f)
  have sources : byteAt p 24 = flagByte [f.upOwn, f.dnOwn] :=
    byteAt_of_byte (by rw [bytes]; rfl) ((flagByte_lt _).trans_le (show 2 ^ 2 ≤ 256 by decide))
  have orderFlagsRead : byteAt p 37 = orderFlags f.halt f.storm f.tideLock f.restartPlan := byteAt_of_byte (by rw [bytes]; rfl) (orderFlags_lt ..)
  have skewHalf : half p 10 = (BitVec.ofInt 16 f.skew).toNat := half_of_bytes (by rw [bytes]; rfl) (by rw [bytes]; rfl) (BitVec.isLt _)
  have skewRead : signedHalf p 10 = f.skew := by rw [signedHalf, skewHalf, toInt_half skewLow skewHigh]
  have upRead : levelOf p 16 = f.upLevel :=
    levelOf_levelWord (word_of_bytes (by rw [bytes]; rfl) (by rw [bytes]; rfl) (by rw [bytes]; rfl) (by rw [bytes]; rfl) (levelWord_lt _)) upLevel
  have dnRead : levelOf p 20 = f.dnLevel :=
    levelOf_levelWord (word_of_bytes (by rw [bytes]; rfl) (by rw [bytes]; rfl) (by rw [bytes]; rfl) (by rw [bytes]; rfl) (levelWord_lt _)) dnLevel
  have ticketRead : half p 2 = f.ticket := half_of_bytes (by rw [bytes]; rfl) (by rw [bytes]; rfl) ticket
  have numberRead : byteAt p 6 = f.planNumber := byteAt_of_byte (by rw [bytes]; rfl) planNumber
  have indexRead : byteAt p 7 = f.stepIndex := byteAt_of_byte (by rw [bytes]; rfl) stepIndex
  have openingRead : half p 8 = f.opening := half_of_bytes (by rw [bytes]; rfl) (by rw [bytes]; rfl) opening
  have effectiveRead : half p 12 = f.effective := half_of_bytes (by rw [bytes]; rfl) (by rw [bytes]; rfl) effective
  have unclampedRead : half p 14 = f.unclamped := half_of_bytes (by rw [bytes]; rfl) (by rw [bytes]; rfl) unclamped
  have orderRead : word p 26 = f.orderNumber := word_of_bytes (by rw [bytes]; rfl) (by rw [bytes]; rfl) (by rw [bytes]; rfl) (by rw [bytes]; rfl) orderNumber
  have originRead : byteAt p 30 = f.orderOrigin := byteAt_of_byte (by rw [bytes]; rfl) orderOrigin
  have kindRead : byteAt p 31 = f.orderKind := byteAt_of_byte (by rw [bytes]; rfl) orderKind
  have valueRead : half p 32 = f.orderValue := half_of_bytes (by rw [bytes]; rfl) (by rw [bytes]; rfl) orderValue
  have planRead : byteAt p 34 = f.orderPlan := byteAt_of_byte (by rw [bytes]; rfl) orderPlan
  have maskRead : half p 35 = f.orderMask.toNat := half_of_bytes (by rw [bytes]; rfl) (by rw [bytes]; rfl) (BitVec.isLt _)
  have periodRead : half p 38 = f.reportPeriod := half_of_bytes (by rw [bytes]; rfl) (by rw [bytes]; rfl) reportPeriod
  have latchedRead : half p 40 = f.latched.toNat := half_of_bytes (by rw [bytes]; rfl) (by rw [bytes]; rfl) (BitVec.isLt _)
  have firstRead : byteAt p 42 = f.firstKind := byteAt_of_byte (by rw [bytes]; rfl) firstKind
  have dayRead : half p 43 = f.firstDay := half_of_bytes (by rw [bytes]; rfl) (by rw [bytes]; rfl) firstDay
  have msRead : word p 45 = f.firstMs := word_of_bytes (by rw [bytes]; rfl) (by rw [bytes]; rfl) (by rw [bytes]; rfl) (by rw [bytes]; rfl) firstMs
  have sourceRead : byteAt p 49 = f.commandSource := byteAt_of_byte (by rw [bytes]; rfl) commandSource
  have tagRead : byteAt p 50 = f.commandTag := byteAt_of_byte (by rw [bytes]; rfl) commandTag
  have codeRead : byteAt p 51 = f.commandCode := byteAt_of_byte (by rw [bytes]; rfl) commandCode
  have resultRead : byteAt p 52 = f.commandResult := byteAt_of_byte (by rw [bytes]; rfl) commandResult
  have errorsRead : byteAt p 53 = f.errors := byteAt_of_byte (by rw [bytes]; rfl) errors
  have causeRead : byteAt p 54 = f.cause := byteAt_of_byte (by rw [bytes]; rfl) cause
  simp only [flags, sources, orderFlagsRead, stateFlags, orderFlags, flagOf_flagByte, skewRead, upRead, dnRead, ticketRead, numberRead,
    indexRead, openingRead, effectiveRead, unclampedRead, orderRead, originRead, kindRead, valueRead, planRead, maskRead, periodRead,
    latchedRead, firstRead, dayRead, msRead, sourceRead, tagRead, codeRead, resultRead, errorsRead, causeRead, BitVec.ofNat_toNat,
    BitVec.setWidth_eq]
  rfl

/-! ### The TIDE payload -/

/-- The 10 bytes of a TIDE payload (R186). -/
theorem tidePayload_eq (r : TideRecord) :
    tidePayload r =
      [byteOf (tideKindCode r.kind), byteOf (tideOriginCode r.origin), byteOf (r.day / 256), byteOf r.day, byteOf (r.ms / 16777216),
        byteOf (r.ms / 65536), byteOf (r.ms / 256), byteOf r.ms, byteOf (headHalf r.head / 256), byteOf (headHalf r.head)] := by
  unfold tidePayload
  rw [headBytes_eq]
  unfold bytes2 bytes4
  simp only [List.cons_append, List.nil_append]

theorem tideOfPayload_of_codes {p : List Byte} {kind : TideKind} {origin : TideOrigin} (whole : p.length = 10)
    (kindRead : tideKindOfCode (byteAt p 0) = some kind) (originRead : tideOriginOfCode (byteAt p 1) = some origin) :
    tideOfPayload p = some { kind := kind, origin := origin, day := half p 2, ms := word p 4, head := headOf p 8 } := by
  simp only [tideOfPayload, whole, kindRead, originRead, if_true]

theorem tidePayload_codes (r : TideRecord) :
    tideKindOfCode (byteAt (tidePayload r) 0) = some r.kind ∧ tideOriginOfCode (byteAt (tidePayload r) 1) = some r.origin := by
  rw [tidePayload_eq]
  exact ⟨tideKindOfCode_tideKindCode r.kind, tideOriginOfCode_tideOriginCode r.origin⟩

theorem tideOfPayload_isSome (r : TideRecord) : (tideOfPayload (tidePayload r)).isSome = true := by
  obtain ⟨kind, origin⟩ := tidePayload_codes r
  rw [tideOfPayload_of_codes (tidePayload_length r) kind origin]
  rfl

/-- What a receiver reads from the bytes of a TIDE is what the station put in (R186). -/
theorem tideOfPayload_tidePayload {r : TideRecord} (fits : TideFits r) : tideOfPayload (tidePayload r) = some r := by
  obtain ⟨day, ms, head⟩ := fits
  obtain ⟨kind, origin⟩ := tidePayload_codes r
  rw [tideOfPayload_of_codes (tidePayload_length r) kind origin]
  have bytes := tidePayload_eq r
  generalize tidePayload r = p at bytes
  have dayRead : half p 2 = r.day := half_of_bytes (by rw [bytes]; rfl) (by rw [bytes]; rfl) day
  have msRead : word p 4 = r.ms := word_of_bytes (by rw [bytes]; rfl) (by rw [bytes]; rfl) (by rw [bytes]; rfl) (by rw [bytes]; rfl) ms
  have headRead : headOf p 8 = r.head := headOf_headHalf (half_of_bytes (by rw [bytes]; rfl) (by rw [bytes]; rfl) (headHalf_lt _)) head
  rw [dayRead, msRead, headRead]

/-! ### The COMMAND payload (O43) -/

theorem eventOfCommand_eq (source target code argument tag : Byte) (straps : BitVec 4) :
    eventOfCommand source [target, code, argument, tag] straps =
      some
        (if code.toNat = 1 then .resume source target argument tag
         else if code.toNat = 2 then .finishAtHold source target argument tag
         else if code.toNat = 3 then .tideEvent source target argument tag
         else if code.toNat = 4 then .abandon source target argument tag
         else if code.toNat = 5 then .clearFault source target argument tag
         else if code.toNat = 6 then .clearCounts source target argument tag
         else if code.toNat = 7 then .restart source target argument tag straps
         else .unknownCommand source target code argument tag) := rfl

/-- Settles O43. -/
theorem payloadsCarryEveryField : Obligations.PayloadsCarryEveryField := by
  refine ⟨fun _ => stateOfPayload_statePayload, fun _ => tideOfPayload_tidePayload, fun source payload straps short => ?_,
    fun source target code argument tag straps i reads => ?_, fun source target code argument tag straps => rfl⟩
  · match payload, short with
    | [], _ | [_], _ | [_, _], _ | [_, _, _], _ | _ :: _ :: _ :: _ :: _ :: _, _ => rfl
    | [_, _, _, _], short => exact absurd rfl short
  · rw [eventOfCommand_eq, Option.some.injEq] at reads
    subst reads
    refine ⟨fun c => ?_, fun c => ?_, fun c => ?_, fun c => ?_, fun c => ?_, fun c => ?_, fun c => ?_, fun other => ?_⟩
    iterate 7 simp [c]
    rw [if_neg, if_neg, if_neg, if_neg, if_neg, if_neg, if_neg] <;> omega

/-! ### Reception (O44) -/

/-- The envelope of a whole frame, byte by byte (R168). -/
theorem frameBytes_parts {kind source : Nat} {payload : List Byte} (kindFits : kind < 256) (sourceFits : source < 256)
    (short : payload.length < 256) :
    (frameBytes kind source payload).length = payload.length + 5 ∧ byteAt (frameBytes kind source payload) 0 = kind ∧
      byteAt (frameBytes kind source payload) 1 = source ∧ byteAt (frameBytes kind source payload) 2 = payload.length ∧
      ((frameBytes kind source payload).drop 3).take payload.length = payload ∧
      half (frameBytes kind source payload) (payload.length + 3) =
        (checkWord ((frameBytes kind source payload).take (payload.length + 3))).toNat := by
  obtain ⟨word, isWord⟩ : ∃ w, w = checkWord ([byteOf kind, byteOf source, byteOf payload.length] ++ payload) := ⟨_, rfl⟩
  have bytes : frameBytes kind source payload = byteOf kind :: byteOf source :: byteOf payload.length :: (payload ++ bytes2 word.toNat) := by
    rw [frameBytes, isWord]
    rfl
  have before : (frameBytes kind source payload).take (payload.length + 3) =
      [byteOf kind, byteOf source, byteOf payload.length] ++ payload := by
    rw [bytes]
    simp
  rw [before, ← isWord, bytes]
  refine ⟨by simp, byteAt_of_byte rfl kindFits, byteAt_of_byte rfl sourceFits, byteAt_of_byte rfl short, by simp, ?_⟩
  refine half_of_bytes ?_ ?_ word.isLt
  · simp [bytes2]
  · simp [bytes2]

theorem arrivalFault_frameBytes {kind source : Nat} {payload : List Byte} (known : 1 ≤ kind ∧ kind ≤ 4) (valid : source ≤ 23)
    (length : payload.length = payloadLength kind) (state : kind = kindState → (stateOfPayload payload).isSome = true)
    (tide : kind = kindTide → (tideOfPayload payload).isSome = true) : arrivalFault (frameBytes kind source payload) = false := by
  have short : payload.length < 256 := by
    rw [length]
    unfold payloadLength
    (repeat' split) <;> omega
  obtain ⟨whole, kindRead, sourceRead, lengthRead, payloadRead, checked⟩ :=
    frameBytes_parts (payload := payload) (show kind < 256 by omega) (show source < 256 by omega) short
  have stateReads : (kind == kindState && (stateOfPayload payload).isNone) = false := by
    by_cases isState : kind = kindState
    · simp [← Option.not_isSome, state isState]
    · simp [isState]
  have tideReads : (kind == kindTide && (tideOfPayload payload).isNone) = false := by
    by_cases isTide : kind = kindTide
    · simp [← Option.not_isSome, tide isTide]
    · simp [isTide]
  simp only [arrivalFault, whole, Nat.add_sub_cancel, kindRead, sourceRead, lengthRead, payloadRead, checked, stateReads, tideReads, ← length]
  simp [known, valid]

/-- Settles O44. -/
theorem sentFramesPassReception : Obligations.SentFramesPassReception := by
  intro source f valid
  cases f with
  | state f => exact arrivalFault_frameBytes (by decide) valid (statePayload_length f) (fun _ => stateOfPayload_isSome f) (fun h => by cases h)
  | tide r => exact arrivalFault_frameBytes (by decide) valid (tidePayload_length r) (fun h => by cases h) (fun _ => tideOfPayload_isSome r)

/-! ### Arbitration (O42) -/

theorem wireBits_cons (kind source : Byte) (rest : List Byte) :
    wireBits (kind :: source :: rest) = characterBits true kind ++ characterBits true source ++ rest.flatMap (characterBits false) := rfl

theorem wireBits_frameBytes (kind source : Nat) (payload : List Byte) :
    ∃ rest, wireBits (frameBytes kind source payload) = characterBits true (byteOf kind) ++ (characterBits true (byteOf source) ++ rest) := by
  have bytes : frameBytes kind source payload = byteOf kind :: byteOf source :: (byteOf payload.length :: payload ++
      bytes2 (checkWord ([byteOf kind, byteOf source, byteOf payload.length] ++ payload)).toNat) := rfl
  rw [bytes, wireBits_cons, List.append_assoc]
  exact ⟨_, rfl⟩

/-- The two station numbers go out most significant bit first: the lower one is the first to drive dominant alone (R168, R171). -/
theorem characterBits_lower : ∀ a b : Fin 16, a < b →
    ∃ n : Fin 10, (characterBits true (byteOf a)).take n = (characterBits true (byteOf b)).take n ∧
      (characterBits true (byteOf a))[n.val]? = some false ∧ (characterBits true (byteOf b))[n.val]? = some true := by decide

/-- The first bit in which two runs of bits differ is dominant in the first and recessive in the second (R171). -/
def WinsOver (xs ys : List Bool) : Prop := ∃ n, xs.take n = ys.take n ∧ xs[n]? = some false ∧ ys[n]? = some true

theorem WinsOver.append {xs ys : List Bool} (h : WinsOver xs ys) (us vs : List Bool) : WinsOver (xs ++ us) (ys ++ vs) := by
  obtain ⟨n, same, dominant, recessive⟩ := h
  obtain ⟨inX, -⟩ := List.getElem?_eq_some_iff.mp dominant
  obtain ⟨inY, -⟩ := List.getElem?_eq_some_iff.mp recessive
  refine ⟨n, ?_, ?_, ?_⟩
  · rw [List.take_append_of_le_length inX.le, List.take_append_of_le_length inY.le, same]
  · rw [List.getElem?_append_left inX, dominant]
  · rw [List.getElem?_append_left inY, recessive]

theorem WinsOver.after {xs ys : List Bool} (h : WinsOver xs ys) (before : List Bool) : WinsOver (before ++ xs) (before ++ ys) := by
  obtain ⟨n, same, dominant, recessive⟩ := h
  refine ⟨before.length + n, ?_, ?_, ?_⟩
  · rw [List.take_length_add_append, List.take_length_add_append, same]
  · rw [List.getElem?_append_right (Nat.le_add_right ..), Nat.add_sub_cancel_left, dominant]
  · rw [List.getElem?_append_right (Nat.le_add_right ..), Nat.add_sub_cancel_left, recessive]

/-- Two frames of one kind: the lower number wins in the second character. -/
theorem winsOver_of_number {kind a b : Nat} {p q : List Byte} (lower : a < b) (station : b ≤ 15) :
    WinsOver (wireBits (frameBytes kind a p)) (wireBits (frameBytes kind b q)) := by
  obtain ⟨us, bitsA⟩ := wireBits_frameBytes kind a p
  obtain ⟨vs, bitsB⟩ := wireBits_frameBytes kind b q
  obtain ⟨n, differ⟩ := characterBits_lower ⟨a, by omega⟩ ⟨b, by omega⟩ lower
  rw [bitsA, bitsB]
  exact (WinsOver.append ⟨n, differ⟩ us vs).after _

/-- A STATE wins over a TIDE in the first character. -/
theorem winsOver_of_kind (a b : Nat) (p q : List Byte) :
    WinsOver (wireBits (frameBytes kindState a p)) (wireBits (frameBytes kindTide b q)) := by
  obtain ⟨us, bitsA⟩ := wireBits_frameBytes kindState a p
  obtain ⟨vs, bitsB⟩ := wireBits_frameBytes kindTide b q
  have kinds : WinsOver (characterBits true (byteOf kindState)) (characterBits true (byteOf kindTide)) := ⟨6, by decide⟩
  rw [bitsA, bitsB]
  exact kinds.append _ _

/-- Settles O42. -/
theorem lowerNumberWinsArbitration : Obligations.LowerNumberWinsArbitration := by
  rintro a b f g - station (⟨x, y, rfl, rfl, lower⟩ | ⟨x, y, rfl, rfl⟩ | ⟨x, y, rfl, rfl, lower⟩)
  · exact winsOver_of_number lower station
  · exact winsOver_of_kind a b _ _
  · exact winsOver_of_number lower station

end Sys2Proof.Proofs
end

section
/-! SUPPORT. What an entry into a mode leaves of plan, save and fault sets, and the two ways out of STORM and FAULT that a station takes by itself
and by a command (O34, O49). -/

namespace Sys2Proof.Proofs

open Sys2Proof.Machine Sys2Proof.Safety

/-! ### Mode, relay and save -/

/-- The Mode Controller after an entry (R148 to R158), fault sets aside. -/
theorem enterMode_fields (new : Mode) (s : State) :
    (enterMode new s).modeCtl.mode = new ∧ (enterMode new s).modeCtl.relay = relayIn new ∧ (enterMode new s).modeCtl.stormClear = none ∧
      (enterMode new s).modeCtl.save = saveAfter new s := by
  obtain ⟨frame, -⟩ := enterMode_faults new s
  rw [frame]
  exact ⟨rfl, rfl, rfl, rfl⟩

theorem saveAfter_of_key {new : Mode} (key : new = .auto ∨ new = .loc ∨ new = .maint) (s : State) : saveAfter new s = none := if_pos key

theorem saveAfter_storm (s : State) : saveAfter .storm s = some (s.modeCtl.save.getD (planContext s)) := by
  unfold saveAfter
  cases s.modeCtl.save <;> simp

/-- An entry touches neither loader, position, levels, peers, line nor clocks. -/
theorem enterMode_frame (new : Mode) (s : State) :
    enterMode new s =
      { s with
        order := (enterMode new s).order, tide := (enterMode new s).tide, target := (enterMode new s).target
        grant := (enterMode new s).grant, drive := (enterMode new s).drive, plan := (enterMode new s).plan
        modeCtl := (enterMode new s).modeCtl } :=
  state_ext (by simp) (by simp) (by simp) rfl (by simp) rfl rfl rfl rfl rfl rfl (by simp) (by simp) (by simp)

theorem keyMode_elapse (dt : Nat) (s : State) : keyMode (elapse dt s) = keyMode s := by
  unfold keyMode
  rw [elapse_modeCtl]

/-! ### The plan of a save outside AUTO -/

/-- A restored plan outside AUTO: a RUNNING one is held, a HELD one stands at its resume point (R145, R157). -/
def planStanding (p : Plan) : Plan :=
  if p.state = .held then { p with resume := if p.phase = .done ∨ p.current = none then some .next else some .current } else planHeld p

theorem adjustRestored_of_other {m : Mode} (other : m ≠ .auto) (s : State) : adjustRestored m s = s.withPlan (planStanding s.plan) := by
  unfold adjustRestored planStanding
  split
  · next running => rw [if_neg other, holdPlan_held, if_neg (by rw [running]; decide)]
  · next held => rw [if_pos held]
  · next notRunning notHeld =>
    rw [if_neg notHeld, planHeld, if_neg notRunning]
    rfl

theorem planStanding_facts (p : Plan) :
    (planStanding p).state = (if p.state = .running then .held else p.state) ∧ (planStanding p).number = p.number ∧
      (planStanding p).interp = p.interp ∧ (planStanding p).queue = p.queue ∧ (planStanding p).current = p.current ∧
      (planStanding p).dwell = p.dwell ∧ (planStanding p).finishAtHold = p.finishAtHold := by
  unfold planStanding
  by_cases held : p.state = .held
  · have notRunning : p.state ≠ .running := by rw [held]; decide
    rw [if_pos held, if_neg notRunning]
    exact ⟨rfl, rfl, rfl, rfl, rfl, rfl, rfl⟩
  · rw [if_neg held]
    by_cases running : p.state = .running
    · rw [planHeld, if_pos running, if_pos running]
      exact ⟨rfl, rfl, rfl, rfl, rfl, rfl, rfl⟩
    · rw [planHeld, if_neg running, if_neg running]
      exact ⟨rfl, rfl, rfl, rfl, rfl, rfl, rfl⟩

/-- The plan as an entry leaves it before a save is restored (R142). -/
def planLeft (s : State) : Plan := if s.modeCtl.mode = .auto then planHeld s.plan else s.plan

/-- What an entry into LOCAL or MAINT has made of the station before it restores the save. -/
def entered (new : Mode) (s : State) : State := (claimAtTransition new (setMode new s)).withPlan (planLeft s)

theorem enterMode_keyed {new : Mode} (key : new = .loc ∨ new = .maint) (s : State) : enterMode new s = restoreSave new (entered new s) := by
  have unsaved : takeStormSave new s = s := if_neg fun ⟨storm, _⟩ => by rcases key with rfl | rfl <;> cases storm
  have restores (t : State) : restoreInto new t = restoreSave new t := if_pos (.inr key)
  have notAuto : new ≠ .auto := by rcases key with rfl | rfl <;> decide
  unfold enterMode
  simp only [unsaved, restores, notAuto, if_false]
  congr 1
  unfold entered planLeft
  split
  · rw [holdPlan_held, claimAtTransition_plan, setMode_plan]
  · rw [← setMode_plan new s, ← claimAtTransition_plan new (setMode new s)]
    rfl

theorem claimAtTransition_latched (new : Mode) (s : State) :
    (claimAtTransition new s).modeCtl = { s.modeCtl with active := (claimAtTransition new s).modeCtl.active } := by
  have still := standStill_modeCtl s
  have halted := standStill_modeCtl (setpointToOpening s)
  unfold claimAtTransition
  (repeat' split) <;> dsimp only <;> first | rfl | (rw [still]) | (rw [halted]; rfl)

theorem entered_modeCtl (new : Mode) (s : State) :
    (entered new s).modeCtl =
      { s.modeCtl with mode := new, relay := relayIn new, stormClear := none, active := (entered new s).modeCtl.active } := by
  rw [entered, State.withPlan_modeCtl, claimAtTransition_latched]
  rfl

/-- An entry into LOCAL or MAINT with no save held (R142). -/
theorem enterMode_keyed_none {new : Mode} (key : new = .loc ∨ new = .maint) {s : State} (none : s.modeCtl.save = none) :
    (enterMode new s).plan = planLeft s ∧ (enterMode new s).tide = s.tide := by
  have unsaved : (entered new s).modeCtl.save = Option.none := by rw [entered_modeCtl]; exact none
  have same : restoreSave new (entered new s) = entered new s := by simp only [restoreSave, unsaved]
  rw [enterMode_keyed key, same]
  exact ⟨rfl, by simp [entered]⟩

/-- An entry into LOCAL or MAINT with a save held: the save's plan stands (R145, R157). -/
theorem enterMode_keyed_some {new : Mode} (key : new = .loc ∨ new = .maint) {s : State} {c : StormSave} (save : s.modeCtl.save = some c) :
    (enterMode new s).plan =
        planStanding
          { planLeft s with
            state := c.state, number := c.number, interp := c.interp, queue := c.queue, current := c.current, phase := c.phase
            dwell := c.dwell } ∧
      (enterMode new s).tide = { s.tide with expected := c.expected } := by
  have notAuto : new ≠ .auto := by rcases key with rfl | rfl <;> decide
  have saved : (entered new s).modeCtl.save = some c := by rw [entered_modeCtl]; exact save
  rw [enterMode_keyed key, restoreSave_of_save new saved, adjustRestored_of_other notAuto]
  exact ⟨rfl, by simp [entered, saveRestored]⟩

/-- An entry into LOCAL or MAINT leaves the orders and what is latched (R160). -/
theorem enterMode_keyed_latched {new : Mode} (key : new = .loc ∨ new = .maint) (s : State) :
    (enterMode new s).order = s.order ∧ (enterMode new s).modeCtl.latched = s.modeCtl.latched ∧
      (enterMode new s).modeCtl.firstFault = s.modeCtl.firstFault := by
  have notAuto : new ≠ .auto := by rcases key with rfl | rfl <;> decide
  have modes : (restoreSave new (entered new s)).modeCtl = { (entered new s).modeCtl with save := none } := by
    cases save : (entered new s).modeCtl.save with
    | none =>
      simp only [restoreSave, save]
      rw [← save]
    | some c =>
      rw [restoreSave_of_save new save, adjustRestored_of_other notAuto]
      rfl
  rw [enterMode_keyed key, modes, entered_modeCtl]
  exact ⟨by simp [entered], rfl, rfl⟩

/-! ### The end of the storm (O49) -/

theorem endStorm_eq {img : Image} {s : State} {age : Nat} (storm : s.modeCtl.mode = .storm) (timer : s.modeCtl.stormClear = some age) :
    endStorm img s = enterMode (keyMode s) (elapse (img.params.stormClearTime * 1000 - age) s) := by
  simp only [endStorm, storm, timer, runOn, keyMode_elapse]

theorem relayIn_of_key {m : Mode} (key : m = .auto ∨ m = .loc ∨ m = .maint) : relayIn m = true := by
  rcases key with rfl | rfl | rfl <;> rfl

/-- The station to which the storm's end applies: at the moment of the event, still in STORM. -/
theorem elapse_storm {dt : Nat} {s b : State} (counts : s.loader.inReset = false) (moment : b = elapse dt s) :
    b.modeCtl.mode = s.modeCtl.mode ∧ b.modeCtl.save = s.modeCtl.save ∧ b.plan = s.plan ∧ b.tide = s.tide ∧ b.target = s.target ∧
      b.order.deferred = s.order.deferred ∧ haltInForce b = haltInForce s ∧ acceptedImage b = acceptedImage s ∧
      b.grant.moveState = s.grant.moveState ∧ b.grant.moveKind = s.grant.moveKind ∧ b.position.opening = s.position.opening := by
  subst moment
  have modes := elapse_modeCtl dt s
  have grant := elapse_grant dt s counts
  refine ⟨by rw [modes], by rw [modes], by simp, by simp, by simp, elapse_deferred .., haltInForce_elapse .., acceptedImage_elapse ..,
    by rw [grant], by rw [grant], ?_⟩
  unfold elapse
  split <;> rfl

/-- Settles O49. -/
theorem stormEndRestoresSave : Obligations.StormEndRestoresSave := by
  intro s b img age serving storm timer moment
  obtain ⟨accepted, counts⟩ := serving
  obtain ⟨mode, save, plan, tide, target, deferred, halt, acceptedB, moveState, moveKind, opening⟩ := elapse_storm counts moment
  have key := keyMode_mem s
  have stormB : b.modeCtl.mode ≠ .auto := by rw [mode, storm]; decide
  have ends : effect .stormClearTime s = enterMode (keyMode s) b := by
    rw [effect_of_accepted accepted rfl, endStorm_eq storm timer, moment]
  obtain ⟨t, run, frame, reported⟩ := exec_of_effect ends
  obtain ⟨modeT, relay, clear, saveT⟩ := enterMode_fields (keyMode s) b
  have autoEntry (auto : keyMode s = .auto) : PlanAtAutoEntry img b t := by
    rw [frame, auto]
    exact enterMode_auto_plan (acceptedB.trans accepted) stormB
  have bypassed (maint : keyMode s = .maint) : ClaimBypassed 0 b t := by
    rw [frame, maint]
    exact enterMode_bypassed (acceptedB.trans accepted) (.inr rfl)
  have unbypassed (notMaint : keyMode s ≠ .maint) : ClaimUnbypassed (keyMode s = .auto ∧ haltInForce s = true) b t := by
    rw [frame, ← halt]
    exact enterMode_unbypassed (key.imp_right fun k => k.resolve_right notMaint)
  refine ⟨t, run, by rw [frame]; exact modeT, by rw [frame]; exact relay.trans (relayIn_of_key key), by rw [frame]; exact saveT.trans (saveAfter_of_key key b),
    by rw [frame]; exact clear, fun notMaint bypass under => ?_, fun c saved notAuto => ?_, fun auto => ⟨(autoEntry auto).1, fun halted => ?_⟩,
    autoEntry, bypassed, unbypassed, fun c q saved auto undeferred isQ => ?_, ?_, ?_⟩
  · obtain ⟨-, stops, -⟩ := unbypassed notMaint
    have notStill : b.grant.moveState ≠ .still := by
      rw [moveState]
      rintro still
      rw [still] at under
      cases under
    obtain ⟨grant, drive⟩ := stops ⟨notStill, .inr ⟨by rw [moveKind, bypass], by rw [moveState, under]⟩⟩
    rw [grant, drive]
    refine ⟨rfl, rfl, fun moves => ?_⟩
    rw [if_pos (by rw [moveState, moves]), driveHalted, opening]
    exact ⟨rfl, rfl, rfl⟩
  · have keyed : keyMode s = .loc ∨ keyMode s = .maint := key.resolve_left notAuto
    obtain ⟨planT, tideT⟩ := enterMode_keyed_some keyed (save.trans saved)
    rw [show planLeft b = s.plan from (if_neg stormB).trans plan] at planT
    have planIs : t.plan = _ := (congrArg State.plan frame).trans planT
    have tideIs : t.tide = { s.tide with expected := c.expected } := by rw [← tide]; exact (congrArg State.tide frame).trans tideT
    obtain ⟨state, number, interp, queue, current, dwell, finish⟩ :=
      planStanding_facts { s.plan with
        state := c.state, number := c.number, interp := c.interp, queue := c.queue, current := c.current, phase := c.phase
        dwell := c.dwell }
    rw [planIs, tideIs]
    exact ⟨state, number, interp, queue, current, dwell, rfl, rfl, finish⟩
  · obtain ⟨-, stops, stays⟩ := unbypassed (by rw [auto]; decide)
    by_cases still : b.grant.moveState = .still
    · rw [(stays fun h => h.1 still).1, still]
    · rw [(stops ⟨still, .inl ⟨auto, halted⟩⟩).1]
  · subst isQ
    obtain ⟨-, -, r, -, -, -, restored, untouched, -⟩ := autoEntry auto
    obtain ⟨planT, tideT, startT, -⟩ := untouched (deferred.trans undeferred)
    obtain ⟨tideR, planR⟩ := restored c (save.trans saved)
    obtain ⟨running, held, dead, -⟩ := planR _ rfl
    rw [plan, halt, target] at running
    rw [plan] at held dead
    rw [planT, tideT, startT, tideR, tide]
    exact ⟨rfl, fun runs p fills => (running runs _ rfl).2.2 p fills, held, dead⟩
  · rw [frame, enterMode_frame]
  · rwa [enterMode_line] at reported

end Sys2Proof.Proofs
end

section
/-! SUPPORT. CLEAR_FAULT (O34). -/

namespace Sys2Proof.Proofs

open Sys2Proof.Machine Sys2Proof.Safety

/-! ### The entry into AUTO that no plan moves -/

theorem enterMode_auto_eq {s : State} (notAuto : s.modeCtl.mode ≠ .auto) :
    enterMode .auto s = enterAuto (restoreSave .auto (claimAtTransition .auto (setMode .auto s))) := by
  simp [enterMode, takeStormSave, restoreInto, notAuto]

theorem haltStop_modeCtl (s : State) : (haltStop s).modeCtl = { s.modeCtl with active := (haltStop s).modeCtl.active } := by
  unfold haltStop
  split
  · rfl
  · rw [standStill_modeCtl]; rfl
  · rw [standStill_modeCtl]

/-- With no plan action to take and none to run on, an entry into AUTO leaves what is latched. -/
theorem enterMode_auto_latched {s : State} (notAuto : s.modeCtl.mode ≠ .auto) (undeferred : s.order.deferred = false)
    (stands : ∀ c, s.modeCtl.save = some c → c.state ≠ .running) :
    (enterMode .auto s).modeCtl.latched = s.modeCtl.latched ∧ (enterMode .auto s).modeCtl.firstFault = s.modeCtl.firstFault := by
  obtain ⟨x, isX⟩ : ∃ x, x = restoreSave .auto (claimAtTransition .auto (setMode .auto s)) := ⟨_, rfl⟩
  have claimed := claimAtTransition_latched .auto (setMode .auto s)
  have order : x.order.deferred = false := by rw [isX]; simpa using undeferred
  have modes : x.modeCtl.latched = s.modeCtl.latched ∧ x.modeCtl.firstFault = s.modeCtl.firstFault := by
    rw [isX]
    cases save : (claimAtTransition .auto (setMode .auto s)).modeCtl.save with
    | none =>
      simp only [restoreSave, save]
      rw [claimed]
      exact ⟨rfl, rfl⟩
    | some c =>
      have saved : s.modeCtl.save = some c := by rw [claimed] at save; exact save
      have unmoved : (adjustRestored .auto (saveRestored c (claimAtTransition .auto (setMode .auto s)))).modeCtl =
          { (claimAtTransition .auto (setMode .auto s)).modeCtl with save := none } := by
        unfold adjustRestored
        split
        · next running => exact absurd running (stands c saved)
        · rfl
        · rfl
      rw [restoreSave_of_save .auto save, unmoved, claimed]
      exact ⟨rfl, rfl⟩
  rw [enterMode_auto_eq notAuto, ← isX]
  have undeferredX : (if haltInForce x then haltStop x else x).order.deferred = false := by split <;> simp [order]
  have halted : (enterAuto x) = if haltInForce x then haltStop x else x := by
    unfold enterAuto
    exact if_neg (by simp [undeferredX])
  rw [halted]
  split
  · rw [haltStop_modeCtl]
    exact modes
  · exact modes

/-! ### The claim and the orders at an entry -/

/-- A claim that stands STILL stays so through every entry but that into FAULT. -/
theorem enterMode_still {new : Mode} {s : State} {img : Image} (accepted : acceptedImage s = some img) (still : s.grant.moveState = .still)
    (serves : new = .storm ∨ new = .auto ∨ new = .loc ∨ new = .maint) :
    (enterMode new s).grant = s.grant ∧ (enterMode new s).drive = s.drive := by
  have bypassed (h : new = .storm ∨ new = .maint) : (enterMode new s).grant = s.grant ∧ (enterMode new s).drive = s.drive := by
    obtain ⟨drive, -, grant⟩ := enterMode_bypassed accepted h
    rw [still] at grant
    exact ⟨grant, drive⟩
  have unbypassed (h : new = .auto ∨ new = .loc) : (enterMode new s).grant = s.grant ∧ (enterMode new s).drive = s.drive := by
    obtain ⟨-, -, stays⟩ := enterMode_unbypassed (s := s) h
    exact stays fun stops => stops.1 still
  rcases serves with storm | auto | loc | maint
  · exact bypassed (.inl storm)
  · exact unbypassed (.inl auto)
  · exact unbypassed (.inr loc)
  · exact bypassed (.inr maint)

theorem enterMode_adopted (new : Mode) (s : State) : (enterMode new s).order = { s.order with deferred := (enterMode new s).order.deferred } := by
  unfold enterMode enterAuto
  dsimp only
  (repeat' split) <;> simp

/-! ### CLEAR_FAULT -/

/-- The station whose latched set CLEAR_FAULT has cut down to what is active (R163), as the frame's arrival has left it. -/
abbrev faultsCleared (kept : FaultSet) (s : State) : State :=
  { s with
    modeCtl :=
      { s.modeCtl with
        active := dropFault .alone s.modeCtl.active, latched := kept
        firstFault := if kept = 0 then none else s.modeCtl.firstFault }
    line := heardLine s.line }

theorem doClearFault_refuses {s : State} (all : s.modeCtl.latched &&& dropFault .alone s.modeCtl.active = s.modeCtl.latched) :
    doClearFault (frameArrives s) = (frameArrives s, .refusedState) := if_pos all

theorem doClearFault_clears {s : State} {kept : FaultSet} (isKept : kept = s.modeCtl.latched &&& dropFault .alone s.modeCtl.active)
    (removes : kept ≠ s.modeCtl.latched) : doClearFault (frameArrives s) = (leaveFault (faultsCleared kept s), .done) := by
  subst isKept
  exact if_neg removes

/-- FAULT is left once no stop-class kind is latched (R164). -/
theorem leaveFault_eq (s : State) :
    leaveFault s =
      if s.modeCtl.mode = .fault ∧ hasStopClass s.modeCtl.latched = false then enterMode (if stormDemand s then .storm else keyMode s) s else s :=
  rfl

theorem addFault_dropFault (k : FaultKind) (f : FaultSet) : addFault k (dropFault k f) = addFault k f := by
  unfold addFault dropFault
  ext i
  simp only [BitVec.getElem_or, BitVec.getElem_and, BitVec.getElem_not]
  cases f[i] <;> cases (onlyFault k)[i] <;> rfl

/-- An entry into STORM, LOCAL or MAINT leaves the orders and what is latched. -/
theorem enterMode_other_latched {new : Mode} (other : new = .storm ∨ new = .loc ∨ new = .maint) (s : State) :
    (enterMode new s).order = s.order ∧ (enterMode new s).modeCtl.latched = s.modeCtl.latched ∧
      (enterMode new s).modeCtl.firstFault = s.modeCtl.firstFault := by
  rcases other with rfl | keyed
  · obtain ⟨-, -, order, -, modes⟩ := enterMode_storm s
    rw [modes]
    exact ⟨order, rfl, rfl⟩
  · exact enterMode_keyed_latched keyed s

/-- Settles O34. -/
theorem clearFaultRemovesEndedKinds : Obligations.ClearFaultRemovesEndedKinds := by
  intro source target argument tag s img active kept new reaches accepted allowed isActive isKept isNew
  subst isActive
  refine ⟨fun all => ?_, fun removes stays => ?_, fun removes fault free => ?_⟩
  · have acts := doClearFault_refuses (isKept.symm.trans all)
    rw [frameArrives_eq] at acts
    exact exec_command rfl reaches accepted allowed acts
  · have acts := doClearFault_clears isKept removes
    have stands : leaveFault (faultsCleared kept s) = faultsCleared kept s :=
      if_neg fun ⟨fault, free⟩ => stays.elim (fun other => other fault) fun stop => by
        have free : hasStopClass kept = false := free
        rw [free] at stop
        cases stop
    rw [stands] at acts
    exact exec_command rfl reaches accepted allowed acts
  · obtain ⟨x, isX⟩ : ∃ x, x = faultsCleared kept s := ⟨_, rfl⟩
    have acts := doClearFault_clears isKept removes
    have leaves : leaveFault (faultsCleared kept s) = enterMode new x := by
      rw [isNew, isX]
      exact if_pos ⟨fault, free⟩
    rw [leaves] at acts
    obtain ⟨t, run, answered, frame, reported⟩ := exec_command (i := .clearFault source target argument tag) rfl reaches accepted allowed acts
    have acceptedX : acceptedImage x = some img := by rw [isX]; exact accepted
    have modeX : x.modeCtl.mode = .fault := by rw [isX]; exact fault
    have notAuto : x.modeCtl.mode ≠ .auto := by rw [modeX]; decide
    have latchedX : x.modeCtl.latched = kept := by rw [isX]
    have saveX : x.modeCtl.save = s.modeCtl.save := by rw [isX]
    have serves : new = .storm ∨ new = .auto ∨ new = .loc ∨ new = .maint := by
      rw [isNew]
      split
      · exact .inl rfl
      · exact .inr (keyMode_mem s)
    have others (notAuto : new ≠ .auto) : new = .storm ∨ new = .loc ∨ new = .maint := serves.imp_right fun key => key.resolve_left notAuto
    have moves := enterMode_faults new x
    obtain ⟨mode, relay, clear, save⟩ := enterMode_fields new x
    have modesT : t.modeCtl = (enterMode new x).modeCtl := by rw [frame]
    have planT : t.plan = (enterMode new x).plan := by rw [frame]
    have tideT : t.tide = (enterMode new x).tide := by rw [frame]
    have deferredT : t.order.deferred = (enterMode new x).order.deferred := by rw [frame]
    have autoEntry (auto : new = .auto) : PlanAtAutoEntry img
        { s with
          modeCtl :=
            { s.modeCtl with
              active := dropFault .alone s.modeCtl.active, latched := kept
              firstFault := if kept = 0 then none else s.modeCtl.firstFault } } t := by
      have entry := enterMode_auto_plan acceptedX notAuto
      rw [← auto] at entry
      rw [frame]
      subst isX
      exact entry
    refine ⟨t, run, answered, by rw [modesT, mode], ?_, by rw [modesT, clear], ?_, ?_, ?_, ?_, ?_, ?_, ?_, ?_, autoEntry, ?_, ?_, ?_, ?_, ?_⟩
    · rw [modesT, relay]
      rcases serves with rfl | rfl | rfl | rfl <;> rfl
    · rw [modesT, moves.hasStopClass]
      exact (congrArg hasStopClass latchedX).trans free
    · rw [frame, enterMode_adopted, isX]
    · rw [modesT, moves.2.1]
      exact congrArg (dropFault .planBad) latchedX
    · rintro quiet
      have kept : (enterMode new x).modeCtl.latched = x.modeCtl.latched ∧ (enterMode new x).modeCtl.firstFault = x.modeCtl.firstFault := by
        by_cases auto : new = .auto
        · obtain ⟨undeferred, stands⟩ := quiet.resolve_left (not_not.mpr auto)
          rw [auto]
          exact enterMode_auto_latched notAuto (by rw [isX]; exact undeferred) (by rw [saveX]; exact stands)
        · exact (enterMode_other_latched (others auto) x).2
      rw [modesT, kept.1, kept.2, isX]
      exact ⟨rfl, rfl⟩
    · intro o n auto deferred unsaved adopted masked names other
      obtain ⟨-, -, r, ⟨loader, order, -⟩, bad, untouched, -, -, taken⟩ := autoEntry auto
      obtain ⟨plan, -, -, latchedR⟩ := untouched unsaved
      obtain ⟨-, acts⟩ := taken deferred
      obtain ⟨-, starts⟩ := acts o (by rw [order]; exact adopted)
      rw [loader, plan] at starts
      obtain ⟨-, -, latches⟩ := (starts n masked names).2 other
      rw [latchedR] at latches
      refine ⟨latches.1, fun failed inactive => (latches.2 failed (bad ?_)).trans (addFault_dropFault ..)⟩
      rw [condition] at inactive ⊢
      simp [inactive]
    · rw [modesT, save]
      by_cases storm : new = .storm
      · rw [storm, saveAfter_storm, saveX, isX]
        exact (if_pos rfl).symm
      · rw [if_neg storm]
        exact saveAfter_of_key (serves.resolve_left storm) x
    · rintro (storm | ⟨other, unsaved⟩)
      · obtain ⟨plan, tide, -⟩ := enterMode_storm x
        rw [planT, tideT, storm, plan, if_neg notAuto, tide, isX]
        exact ⟨rfl, rfl⟩
      · by_cases storm : new = .storm
        · obtain ⟨plan, tide, -⟩ := enterMode_storm x
          rw [planT, tideT, storm, plan, if_neg notAuto, tide, isX]
          exact ⟨rfl, rfl⟩
        · obtain ⟨plan, tide⟩ := enterMode_keyed_none ((others other).resolve_left storm) (saveX.trans unsaved)
          rw [planT, tideT, plan, planLeft, if_neg notAuto, tide, isX]
          exact ⟨rfl, rfl⟩
    · intro c keyedNew saved
      obtain ⟨plan, tide⟩ := enterMode_keyed_some keyedNew (saveX.trans saved)
      rw [planLeft, if_neg notAuto] at plan
      obtain ⟨state, number, interp, queue, current, dwell, -⟩ :=
        planStanding_facts { x.plan with
          state := c.state, number := c.number, interp := c.interp, queue := c.queue, current := c.current, phase := c.phase
          dwell := c.dwell }
      rw [planT, tideT, plan, tide, isX] at *
      exact ⟨state, number, interp, queue, current, dwell, rfl⟩
    · intro still
      obtain ⟨grant, drive⟩ := enterMode_still acceptedX (by rw [isX]; exact still) serves
      rw [frame]
      exact ⟨grant.trans (by rw [isX]), drive.trans (by rw [isX])⟩
    · exact fun auto => (autoEntry auto).1
    · intro notAutoNew
      rw [deferredT, (enterMode_other_latched (others notAutoNew) x).1, isX]
    · rw [frame, enterMode_frame, isX]
    · rw [enterMode_line, isX] at reported
      exact reported

end Sys2Proof.Proofs
end

section
/-! SUPPORT. A level sample (O14). -/

namespace Sys2Proof.Proofs

open Sys2Proof.Machine Sys2Proof.Safety

/-! ### The peers' levels -/

theorem peerLevels_eq (c : ChannelId) (s : State) :
    peerLevels c s =
      (List.range 16).filterMap (fun n =>
        match contentAt n s with
        | none => none
        | some r =>
          if r.freshness = .fresh then
            (match c with
              | .upstream => if r.upOwn then r.upLevel else none
              | .downstream => if r.dnOwn then r.dnLevel else none)
          else none) := by
  unfold peerLevels peerRows
  rw [List.filterMap_filterMap]
  refine congrArg (List.filterMap · _) (funext fun n => ?_)
  cases contentAt n s with
  | none => rfl
  | some r =>
    by_cases fresh : r.freshness = .fresh
    · cases c <;> simp [peerLevel, fresh]
    · simp [peerLevel, fresh]

theorem peerLevels_congr {s t : State} (c : ChannelId) (rows : t.peers.rows = s.peers.rows) : peerLevels c t = peerLevels c s := by
  rw [peerLevels, peerLevels, peerRows_congr rows]

/-! ### The channels -/

@[simp] theorem channelOf_setChannel (c : ChannelId) (x : Channel) (l : LevelUnit) : channelOf c (setChannel c x l) = x := by cases c <;> rfl

theorem channelOf_setChannel_of_ne {c d : ChannelId} (ne : d ≠ c) (x : Channel) (l : LevelUnit) :
    channelOf d (setChannel c x l) = channelOf d l := by
  cases c <;> cases d <;> first | exact absurd rfl ne | rfl

/-- A good run after a sample has been judged: one of 8 returns to 0 where its channel's condition is active (R17). -/
def goodRunJudged (c : ChannelId) (s : State) : Nat :=
  if 8 ≤ (channelOf c s.level).goodRun ∧ condition (channelKind c) s = true then 0 else (channelOf c s.level).goodRun

theorem recoverChannel_eq (c : ChannelId) (s : State) :
    recoverChannel c s =
      (s.withLevel (setChannel c { channelOf c s.level with goodRun := goodRunJudged c s } s.level)).withModeCtl
        { s.modeCtl with
          active :=
            if 8 ≤ (channelOf c s.level).goodRun ∧ condition (channelKind c) s = true then dropFault (channelKind c) s.modeCtl.active
            else s.modeCtl.active } := by
  have recovers : (decide (8 ≤ (channelOf c s.level).goodRun) && condition (channelKind c) s) = true ↔
      8 ≤ (channelOf c s.level).goodRun ∧ condition (channelKind c) s = true := by simp
  unfold goodRunJudged
  by_cases run : 8 ≤ (channelOf c s.level).goodRun ∧ condition (channelKind c) s = true
  · rw [if_pos run, if_pos run]
    exact if_pos (recovers.mpr run)
  · rw [if_neg run, if_neg run]
    refine (if_neg (mt recovers.mp run)).trans ?_
    cases c <;> rfl

/-- A channel that recovers leaves the other as it was. -/
theorem recoverChannel_other {c d : ChannelId} (ne : d ≠ c) (s : State) :
    channelOf d (recoverChannel c s).level = channelOf d s.level ∧ condition (channelKind d) (recoverChannel c s) = condition (channelKind d) s := by
  have kinds : channelKind d ≠ channelKind c := by cases c <;> cases d <;> first | exact absurd rfl ne | decide
  rw [recoverChannel_eq]
  refine ⟨channelOf_setChannel_of_ne ne _ _, (hasFault_ite ..).trans ?_⟩
  rw [hasFault_dropFault, decide_eq_false kinds, Bool.not_false, Bool.and_true]
  exact ite_self _

theorem recoverChannel_same (c : ChannelId) (s : State) :
    channelOf c (recoverChannel c s).level = { channelOf c s.level with goodRun := goodRunJudged c s } ∧
      condition (channelKind c) (recoverChannel c s) = (condition (channelKind c) s && decide ((channelOf c s.level).goodRun < 8)) := by
  rw [recoverChannel_eq]
  refine ⟨channelOf_setChannel .., (hasFault_ite ..).trans ?_⟩
  rw [hasFault_dropFault]
  by_cases long : 8 ≤ (channelOf c s.level).goodRun
  · cases active : condition (channelKind c) s <;> simp_all [condition]
  · simp [long, Nat.lt_of_not_le long, condition]

/-- Both channels judged (R17): each by its own run and condition. -/
theorem recoverChannels (c : ChannelId) (s : State) :
    channelOf c (recoverChannel .downstream (recoverChannel .upstream s)).level = { channelOf c s.level with goodRun := goodRunJudged c s } ∧
      condition (channelKind c) (recoverChannel .downstream (recoverChannel .upstream s)) =
        (condition (channelKind c) s && decide ((channelOf c s.level).goodRun < 8)) := by
  cases c with
  | upstream =>
    obtain ⟨level, active⟩ := recoverChannel_other (c := .downstream) (d := .upstream) (by decide) (recoverChannel .upstream s)
    obtain ⟨level', active'⟩ := recoverChannel_same .upstream s
    exact ⟨level.trans level', active.trans active'⟩
  | downstream =>
    obtain ⟨level, active⟩ := recoverChannel_other (c := .upstream) (d := .downstream) (by decide) s
    obtain ⟨level', active'⟩ := recoverChannel_same .downstream (recoverChannel .upstream s)
    rw [goodRunJudged, level, active] at level'
    rw [level, active] at active'
    exact ⟨level', active'⟩

/-! ### The sample judged -/

/-- A station whose channels have taken their codes (R16 to R18). -/
def codesTaken (img : Image) (up dn : Half) (s : State) : State :=
  s.withLevel
    { s.level with
      up := sampleChannel img.params (condition .levelUp s) up.toNat s.level.up
      dn := sampleChannel img.params (condition .levelDn s) dn.toNat s.level.dn }

/-- A station whose level conditions have been judged (R17). -/
def levelsJudged (img : Image) (up dn : Half) (s : State) : State :=
  raise (levelFaults (codesTaken img up dn s)) (recoverChannel .downstream (recoverChannel .upstream (codesTaken img up dn s)))

theorem sampleLevels_eq (img : Image) (up dn : Half) (s : State) :
    sampleLevels img up dn s = evalTide img.params (selectLevels (levelsJudged img up dn s)) := rfl

/-- The code of a channel in a sample. -/
def codeOf (c : ChannelId) (up dn : Half) : Half := match c with | .upstream => up | .downstream => dn

theorem channelOf_codesTaken (c : ChannelId) (img : Image) (up dn : Half) (s : State) :
    channelOf c (codesTaken img up dn s).level =
      sampleChannel img.params (condition (channelKind c) s) (codeOf c up dn).toNat (channelOf c s.level) := by cases c <;> rfl

theorem mem_levelFaults_iff (c : ChannelId) (s : State) : channelKind c ∈ levelFaults s ↔ 3 ≤ (channelOf c s.level).railRun := by
  cases c <;> simp [levelFaults, channelKind, channelFails, channelOf]

/-- Level kinds change no mode (R160). -/
theorem raise_levelFaults (s t : State) : raise (levelFaults s) t = latchKinds (levelFaults s) t := by
  refine if_neg ?_
  simp only [Bool.and_eq_true, List.any_eq_true, not_and]
  rintro - ⟨k, enters, stop⟩
  have level := mem_levelFaults (mem_becomingActive.mp (mem_enteringLatched.mp enters).1).1
  rcases level with rfl | rfl <;> cases stop

theorem channelKind_lasts (c : ChannelId) :
    channelKind c ≠ .pump ∧ channelKind c ≠ .stall ∧ channelKind c ≠ .valveL ∧ channelKind c ≠ .valveR := by cases c <;> decide

/-- The channel and its condition after the sample has been judged. -/
theorem levelsJudged_channel (c : ChannelId) (img : Image) (up dn : Half) {s : State} {x : Channel}
    (sampled : x = sampleChannel img.params (condition (channelKind c) s) (codeOf c up dn).toNat (channelOf c s.level)) :
    channelOf c (levelsJudged img up dn s).level =
        { x with goodRun := if 8 ≤ x.goodRun ∧ condition (channelKind c) s = true then 0 else x.goodRun } ∧
      condition (channelKind c) (levelsJudged img up dn s) =
        ((condition (channelKind c) s && decide (x.goodRun < 8)) || decide (3 ≤ x.railRun)) ∧
      (3 ≤ x.railRun → condition (channelKind c) s = false → hasFault (channelKind c) (levelsJudged img up dn s).modeCtl.latched = true) := by
  obtain ⟨level, active⟩ := recoverChannels c (codesTaken img up dn s)
  have taken := channelOf_codesTaken c img up dn s
  rw [← sampled] at taken
  have before : condition (channelKind c) (codesTaken img up dn s) = condition (channelKind c) s := rfl
  rw [goodRunJudged, taken, before] at level
  rw [taken, before] at active
  have raised := mem_levelFaults_iff c (codesTaken img up dn s)
  rw [taken] at raised
  refine ⟨?_, ?_, fun long inactive => ?_⟩
  · rw [levelsJudged, raise_level, level]
  · rw [levelsJudged, condition_raise _ _ (channelKind_lasts c), active]
    simp only [raised]
  · exact latched_raise (raised.mpr long) (by rw [active, inactive, Bool.false_and])

/-! ### What a code makes of a channel -/

theorem isRail_iff {code : Nat} : isRail code = true ↔ code ≤ 16 ∨ 65519 ≤ code := by simp [isRail]

theorem sumInt_eq (xs : List Int) : sumInt xs = xs.sum := by
  rw [sumInt, List.sum_eq_foldl]

theorem filteredOf_eq (ring : List Int) : filteredOf ring = if ring = [] then none else some (ring.sum.fdiv ring.length) := by
  unfold filteredOf floorDiv
  rw [sumInt_eq]
  simp only [List.length_eq_zero_iff]

/-- A code joins the ring, or counts in the rail run (R16, R18). -/
theorem sampleChannel_ring (p : Params) (active : Bool) (code : Nat) (c : Channel) :
    ((sampleChannel p active code c).ring, (sampleChannel p active code c).railRun) =
      if code ≤ 16 ∨ 65519 ≤ code then (c.ring, min 255 (c.railRun + 1))
      else ((c.ring ++ [p.lvlOffset + ((code * p.lvlSpan / 65536 : Nat) : Int)]).drop (c.ring.length - 7), 0) := by
  unfold sampleChannel
  by_cases rail : code ≤ 16 ∨ 65519 ≤ code
  · rw [if_pos (isRail_iff.mpr rail), if_pos rail, countTo_min]
  · rw [if_neg (mt isRail_iff.mp rail), if_neg rail]
    have length : c.ring.length + 1 - 8 = c.ring.length - 7 := by omega
    simp only [pushRing, scaleLevel, length]

theorem sampleChannel_filtered (p : Params) (active : Bool) (code : Nat) (c : Channel) :
    (sampleChannel p active code c).filtered = filteredOf (sampleChannel p active code c).ring := by
  unfold sampleChannel
  split <;> rfl

/-- The good run counts while the condition is active (R17). -/
theorem sampleChannel_goodRun (p : Params) (active : Bool) (code : Nat) (c : Channel) :
    (sampleChannel p active code c).goodRun = if code ≤ 16 ∨ 65519 ≤ code ∨ active = false then 0 else min 8 (c.goodRun + 1) := by
  unfold sampleChannel
  by_cases rail : code ≤ 16 ∨ 65519 ≤ code
  · rw [if_pos (isRail_iff.mpr rail), if_pos (by tauto)]
  · rw [if_neg (mt isRail_iff.mp rail)]
    simp only [← or_assoc, rail, false_or]
    cases active <;> simp [countTo_min]

/-! ### The levels used and the head -/

theorem channelOf_selectLevels (c : ChannelId) (s : State) : channelOf c (selectLevels s).level = selectedChannel c s := by cases c <;> rfl

/-- The level of the own channel, or the median of the peers (R19, R20). -/
theorem selectLevel_eq (c : ChannelId) (s : State) :
    selectLevel c s =
      match (channelOf c s.level).filtered, condition (channelKind c) s with
      | some x, false => (some x, .own)
      | _, _ =>
        match median (peerLevels c s) with
        | some x => (some x, .peer)
        | none => (none, .absent) := by
  unfold selectLevel
  rfl

theorem selectLevels_head (s : State) :
    (selectLevels s).level.head =
      match (selectLevels s).level.up.used, (selectLevels s).level.dn.used with
      | some u, some d => some (u - d)
      | _, _ => none := by
  change headOfLevels _ _ = _
  unfold headOfLevels
  rfl

/-! ### The Tide Monitor -/

theorem evalTide_of_none {p : Params} {s : State} (blind : s.level.head = none) :
    evalTide p s = s.withTide { s.tide with candidate := 0, blind := true } := by simp only [evalTide, blind]

theorem evalTide_of_undecided {p : Params} {s : State} {h : Int} (head : s.level.head = some h) (window : s.tide.window = .undecided) :
    evalTide p s =
      s.withTide { s.tide with window := if p.headOpen ≤ h then .opened else .closed, candidate := 0, blind := false } := by
  simp only [evalTide, head, window]
  rfl

/-- A sample with head counts toward the toggle of a decided window (R24). -/
theorem evalTide_of_decided {p : Params} {s : State} {h : Int} (head : s.level.head = some h) (window : s.tide.window ≠ .undecided) :
    evalTide p s =
      qualifyTide p (s.withTide { s.tide with blind := false, candidate := candidateAfter p s.tide.window h s.tide.candidate }) := by
  cases state : s.tide.window with
  | undecided => exact absurd state window
  | opened => simp only [evalTide, head, state]; rfl
  | closed => simp only [evalTide, head, state]; rfl

theorem candidateAfter_eq {p : Params} {w : Window} (h : Int) (n : Nat) (window : w ≠ .undecided) :
    candidateAfter p w h n = if w = .closed ∧ p.headOpen ≤ h ∨ w = .opened ∧ h ≤ p.headClose then n + 1 else 0 := by
  cases w with
  | undecided => exact absurd rfl window
  | opened => simp [candidateAfter]
  | closed => simp [candidateAfter]

theorem qualifyTide_of_few {p : Params} {s : State} (few : s.tide.candidate < p.tideQualify) : qualifyTide p s = s :=
  if_neg (Nat.not_le.mpr few)

theorem qualifyTide_of_enough {p : Params} {s : State} {k : TideKind} (enough : p.tideQualify ≤ s.tide.candidate)
    (toggles : s.tide.window = .closed ∧ k = .opens ∨ s.tide.window = .opened ∧ k = .closes) :
    qualifyTide p s = makeTideEvent k .detected s.level.head s := by
  unfold qualifyTide
  rw [if_pos enough]
  rcases toggles with ⟨window, rfl⟩ | ⟨window, rfl⟩ <;> rw [window]

/-! ### The storm entry -/

/-- Conditions that are not of a move stay through an entry into STORM. -/
theorem condition_enterStorm {k : FaultKind} (s : State) (lasts : k ≠ .pump ∧ k ≠ .stall ∧ k ≠ .valveL ∧ k ≠ .valveR) :
    condition k (enterMode .storm s) = condition k s := by
  have claimed (t : State) : condition k (claimAtTransition .storm t) = condition k t := by
    have still : condition k (standStill t) = condition k t := by
      rw [condition, standStill_modeCtl]
      exact hasFault_moveConditionsEnded _ lasts
    unfold claimAtTransition
    dsimp only
    split
    · rfl
    · exact still
    · split <;> rfl
    · rfl
  have saved : condition k (takeStormSave .storm s) = condition k s := by
    unfold takeStormSave
    split <;> rfl
  have enters : enterMode .storm s =
      if s.modeCtl.mode = .auto then holdPlan (claimAtTransition .storm (setMode .storm (takeStormSave .storm s)))
      else claimAtTransition .storm (setMode .storm (takeStormSave .storm s)) := by
    simp [enterMode, restoreInto]
  rw [enters]
  split
  · rw [condition, holdPlan_modeCtl]
    exact (claimed _).trans saved
  · exact (claimed _).trans saved

/-! ### The whole sample -/

theorem levelsJudged_frame (img : Image) (up dn : Half) (s : State) :
    levelsJudged img up dn s =
      { s with
        level := (levelsJudged img up dn s).level
        modeCtl :=
          { s.modeCtl with
            active := (levelsJudged img up dn s).modeCtl.active, latched := (levelsJudged img up dn s).modeCtl.latched
            firstFault := (levelsJudged img up dn s).modeCtl.firstFault } } := by
  unfold levelsJudged
  rw [raise_levelFaults, recoverChannel_eq .downstream, recoverChannel_eq .upstream]
  rfl

theorem evalTide_frame (p : Params) (s : State) : evalTide p s = { s with tide := (evalTide p s).tide, line := (evalTide p s).line } :=
  state_ext (by simp) (by simp) (by simp) rfl (by simp) (by simp) (by simp) (by simp) (by simp) (by simp) (by simp) rfl (by simp) (by simp)

theorem tideReplaced_elapse (dt : Nat) (s : State) : (elapse dt s).line.tideReplaced = s.line.tideReplaced := by
  cases counts : s.loader.inReset with
  | true => rw [elapse_of_reset counts]
  | false => rw [elapse_line counts, takeChanges_eq]

theorem evalTide_expected (p : Params) (s : State) : (evalTide p s).tide.expected = s.tide.expected := by
  have qualified (u : State) : (qualifyTide p u).tide.expected = u.tide.expected := by
    unfold qualifyTide
    (repeat' split) <;> rfl
  unfold evalTide
  split
  · rfl
  · split
    · rfl
    · exact qualified _

theorem condition_setConditions {k : FaultKind} (order input level : Bool) (s : State)
    (lasts : k ≠ .pump ∧ k ≠ .stall ∧ k ≠ .valveL ∧ k ≠ .valveR) : condition k (setConditions order input level s) = condition k s := by
  obtain ⟨x, isX, conditions⟩ := setConditions_cases order input level s
  have same : condition k x = condition k s := by rw [isX]; rfl
  rw [conditions]
  split
  · exact (condition_enterStorm x lasts).trans same
  · exact same

/-- The station as a level sample finds it at its moment. -/
def sampleMoment (s : State) : State := nextSample (elapse (1000 - s.clocks.sample) s)

theorem effect_levelSample {up dn : Half} {s : State} {img : Image} (accepted : acceptedImage s = some img) :
    effect (.levelSample up dn) s = levelSample img up dn (sampleMoment s) :=
  (effect_of_accepted accepted rfl).trans rfl

theorem sampleMoment_facts (s : State) :
    (sampleMoment s).level = s.level ∧ (sampleMoment s).tide = s.tide ∧ (sampleMoment s).peers.rows = s.peers.rows ∧
      (sampleMoment s).plan = s.plan ∧ (sampleMoment s).target = s.target ∧ ∀ k, condition k (sampleMoment s) = condition k s := by
  unfold sampleMoment nextSample
  simp only [State.withClocks_level, State.withClocks_tide, State.withClocks_peers, State.withClocks_plan, State.withClocks_target,
    condition, State.withClocks_modeCtl, elapse_level, elapse_tide, elapse_rows, elapse_plan, elapse_target, elapse_modeCtl, implies_true,
    and_self]

/-- What a sample leaves of levels and conditions, and what of the station it has not yet touched: `x` is the station with its head formed
and its tide evaluated, before the storm demand is judged. -/
theorem sampled_levels {img : Image} {up dn : Half} {s x : State} (sampled : x = sampleLevels img up dn (sampleMoment s)) :
    (∀ c, channelOf c x.level = selectedChannel c (levelsJudged img up dn (sampleMoment s)) ∧
      condition (channelKind c) x = condition (channelKind c) (levelsJudged img up dn (sampleMoment s)) ∧
      hasFault (channelKind c) x.modeCtl.latched = hasFault (channelKind c) (levelsJudged img up dn (sampleMoment s)).modeCtl.latched) ∧
      x.level = (selectLevels (levelsJudged img up dn (sampleMoment s))).level ∧
      x.modeCtl =
        { (sampleMoment s).modeCtl with active := x.modeCtl.active, latched := x.modeCtl.latched, firstFault := x.modeCtl.firstFault } ∧
      x = { sampleMoment s with level := x.level, tide := x.tide, modeCtl := x.modeCtl, line := x.line } := by
  rw [sampleLevels_eq] at sampled
  subst sampled
  refine ⟨fun c => ⟨?_, by simp only [condition, evalTide_modeCtl, selectLevels_modeCtl], by rw [evalTide_modeCtl, selectLevels_modeCtl]⟩,
    evalTide_level .., ?_, ?_⟩
  · rw [evalTide_level, channelOf_selectLevels]
  · rw [evalTide_modeCtl, selectLevels_modeCtl, levelsJudged_frame]
  · generalize sampleMoment s = v
    rw [evalTide_frame, selectLevels, levelsJudged_frame]
    rfl

/-- A channel after a sample, and its condition (R16 to R20). -/
theorem sampled_channel {img : Image} {up dn : Half} {s x : State} (sampled : x = sampleLevels img up dn (sampleMoment s)) (c : ChannelId)
    {good : Nat}
    (isGood : good =
      if (codeOf c up dn).toNat ≤ 16 ∨ 65519 ≤ (codeOf c up dn).toNat ∨ condition (channelKind c) s = false then 0
      else min 8 ((channelOf c s.level).goodRun + 1)) :
    ((channelOf c x.level).ring, (channelOf c x.level).railRun) =
        (if (codeOf c up dn).toNat ≤ 16 ∨ 65519 ≤ (codeOf c up dn).toNat then
          ((channelOf c s.level).ring, min 255 ((channelOf c s.level).railRun + 1))
        else
          (((channelOf c s.level).ring ++
              [img.params.lvlOffset + (((codeOf c up dn).toNat * img.params.lvlSpan / 65536 : Nat) : Int)]).drop
              ((channelOf c s.level).ring.length - 7), 0)) ∧
      (channelOf c x.level).filtered = filteredOf (channelOf c x.level).ring ∧
      (condition (channelKind c) x = true ↔ 3 ≤ (channelOf c x.level).railRun ∨ (condition (channelKind c) s = true ∧ good < 8)) ∧
      (3 ≤ (channelOf c x.level).railRun → condition (channelKind c) s = false → hasFault (channelKind c) x.modeCtl.latched = true) ∧
      (channelOf c x.level).goodRun = (if good < 8 then good else 0) ∧
      ((channelOf c x.level).used, (channelOf c x.level).source) = selectLevel c (levelsJudged img up dn (sampleMoment s)) := by
  obtain ⟨channels, -⟩ := sampled_levels sampled
  obtain ⟨level, active, latched⟩ := channels c
  obtain ⟨levelV, -, -, -, -, conditionV⟩ := sampleMoment_facts s
  obtain ⟨X, isX⟩ : ∃ X, X = sampleChannel img.params (condition (channelKind c) s) (codeOf c up dn).toNat (channelOf c s.level) := ⟨_, rfl⟩
  obtain ⟨judged, judgedActive, judgedLatched⟩ := levelsJudged_channel c img up dn (s := sampleMoment s) (x := X) (by rw [isX, conditionV, levelV])
  rw [conditionV] at judged judgedActive judgedLatched
  rw [selectedChannel, judged] at level
  have ring : (X.ring, X.railRun) = _ := isX ▸ sampleChannel_ring img.params (condition (channelKind c) s) (codeOf c up dn).toNat _
  have run : X.goodRun = good := by rw [isX, sampleChannel_goodRun, isGood]
  have idle (inactive : condition (channelKind c) s = false) : good = 0 := isGood.trans (if_pos (.inr (.inr inactive)))
  rw [level, active, latched]
  refine ⟨ring, ?_, ?_, judgedLatched, ?_, rfl⟩
  · rw [isX]
    exact sampleChannel_filtered ..
  · rw [judgedActive, run]
    simp only [Bool.or_eq_true, Bool.and_eq_true, decide_eq_true_eq]
    exact or_comm
  · change (if 8 ≤ X.goodRun ∧ condition (channelKind c) s = true then 0 else X.goodRun) = _
    rw [run]
    by_cases long : 8 ≤ good
    · have raised : condition (channelKind c) s = true := by
        by_contra inactive
        have := idle (Bool.eq_false_of_not_eq_true inactive)
        omega
      rw [if_pos ⟨long, raised⟩, if_neg (by omega)]
    · rw [if_neg fun h => long h.1, if_pos (by omega)]

/-- The Tide Monitor's three cases (R23 to R25), with the line of each. -/
theorem sampled_tide {p : Params} {k x : State} (evaluated : x = evalTide p k) :
    x.tide.blind = k.level.head.isNone ∧
      (k.level.head = none → x.tide = { k.tide with candidate := 0, blind := true } ∧ x.line = k.line) ∧
      (∀ h count, k.level.head = some h →
        (k.tide.window = .undecided →
          x.tide = { k.tide with window := if p.headOpen ≤ h then .opened else .closed, candidate := 0, blind := false } ∧ x.line = k.line) ∧
        (k.tide.window ≠ .undecided →
          count =
            (if k.tide.window = .closed ∧ p.headOpen ≤ h ∨ k.tide.window = .opened ∧ h ≤ p.headClose then k.tide.candidate + 1 else 0) →
          (count < p.tideQualify → x.tide = { k.tide with candidate := count, blind := false } ∧ x.line = k.line) ∧
          (p.tideQualify ≤ count →
            ∀ kind, (k.tide.window = .closed ∧ kind = .opens ∨ k.tide.window = .opened ∧ kind = .closes) →
            x.tide = { k.tide with window := windowOf kind, candidate := 0, blind := false, latch := latchAtEvent kind k } ∧
              x.line =
                { k.line with
                  tideSlot := some
                    { kind := kind, origin := .detected, day := k.order.clockDay, ms := k.order.clockMs, head := some h }
                  tideReplaced := sendingTide k || k.line.tideReplaced }))) := by
  subst evaluated
  cases head : k.level.head with
  | none =>
    rw [evalTide_of_none head]
    exact ⟨rfl, fun _ => ⟨rfl, rfl⟩, fun h count some => by cases some⟩
  | some h =>
    by_cases window : k.tide.window = .undecided
    · rw [evalTide_of_undecided head window]
      refine ⟨rfl, fun blind => (by cases blind), fun h' count same => ⟨fun _ => ?_, fun decided => absurd window decided⟩⟩
      obtain rfl := Option.some.inj same
      exact ⟨rfl, rfl⟩
    · rw [evalTide_of_decided head window, candidateAfter_eq h _ window]
      refine ⟨?_, fun blind => (by cases blind), fun h' count same => ⟨fun undecided => absurd undecided window, fun _ isCount => ?_⟩⟩
      · unfold qualifyTide
        (repeat' split) <;> rfl
      · obtain rfl := Option.some.inj same
        obtain ⟨u, isU⟩ : ∃ u, u = k.withTide { k.tide with blind := false, candidate := count } := ⟨_, rfl⟩
        rw [← isCount, ← isU]
        refine ⟨fun few => ?_, fun enough kind toggles => ?_⟩
        · rw [qualifyTide_of_few (s := u) (by rw [isU]; exact few), isU]
          exact ⟨rfl, rfl⟩
        · rw [qualifyTide_of_enough (s := u) (by rw [isU]; exact enough) (by rw [isU]; exact toggles), isU, State.withTide_level, head]
          exact ⟨rfl, rfl⟩

theorem enterMode_storm_frame (s : State) :
    enterMode .storm s =
      { s with
        target := (enterMode .storm s).target, grant := (enterMode .storm s).grant, drive := (enterMode .storm s).drive
        plan := (enterMode .storm s).plan, modeCtl := (enterMode .storm s).modeCtl } := by
  obtain ⟨-, tide, order, -, -⟩ := enterMode_storm s
  exact state_ext (by simp) (by simp) (by simp) tide (by simp) order rfl rfl rfl rfl rfl (by simp) (by simp) (by simp)

/-- The storm demand judged at the end of a sample (R149 to R156): `y` is the station with its conditions, `w` the one that follows. -/
theorem storm_judged {img : Image} {x y w : State} {demand : Bool} {rest : Option Nat} (accepted : acceptedImage y = some img)
    (entry : w = if demand = true ∧ (x.modeCtl.mode = .auto ∨ x.modeCtl.mode = .loc) then enterMode .storm y else y)
    (mode : y.modeCtl.mode = x.modeCtl.mode) (isDemand : demand = stormDemand y) (clear : y.modeCtl.stormClear = if demand then none else rest) :
    w.tide = y.tide ∧ w.level = y.level ∧ w.line = y.line ∧ w.modeCtl.latched = y.modeCtl.latched ∧
      w.modeCtl.condOrder = y.modeCtl.condOrder ∧ w.modeCtl.condInput = y.modeCtl.condInput ∧ w.modeCtl.condLevel = y.modeCtl.condLevel ∧
      w.modeCtl.mode =
        (if stormDemand w = true ∧ (x.modeCtl.mode = .auto ∨ x.modeCtl.mode = .loc) then .storm else x.modeCtl.mode) ∧
      w.modeCtl.stormClear = (if stormDemand w then none else rest) ∧
      (w.modeCtl.mode = x.modeCtl.mode → w = y) ∧
      (w.modeCtl.mode ≠ x.modeCtl.mode → y.modeCtl.save = none → w.modeCtl.save = some (planContext y) ∧
        w.plan.state = (if x.modeCtl.mode = .auto ∧ y.plan.state = .running then .held else y.plan.state)) ∧
      (w.modeCtl.mode ≠ x.modeCtl.mode → ClaimBypassed (img.params.warnLead * 1000) y w) := by
  by_cases enters : demand = true ∧ (x.modeCtl.mode = .auto ∨ x.modeCtl.mode = .loc)
  · obtain ⟨demands, serves⟩ := enters
    rw [if_pos ⟨demands, serves⟩] at entry
    obtain ⟨plan, tide, -, -, modes⟩ := enterMode_storm y
    rw [← entry] at plan tide modes
    have wDemand : stormDemand w = true := by
      rw [← demands, isDemand]
      unfold stormDemand
      rw [modes]
    have modeW : w.modeCtl.mode = .storm := by rw [modes]
    have notStorm : Mode.storm ≠ x.modeCtl.mode := by rcases serves with is | is <;> rw [is] <;> decide
    refine ⟨tide, by rw [entry, enterMode_level], by rw [entry, enterMode_line], by rw [modes], by rw [modes], by rw [modes], by rw [modes],
      by rw [modeW, if_pos ⟨wDemand, serves⟩], by rw [wDemand, modes]; rfl, fun same => absurd (modeW.symm.trans same) notStorm, fun _ unsaved => ⟨?_, ?_⟩,
      fun _ => ?_⟩
    · rw [modes, unsaved]
      rfl
    · rw [plan, mode]
      by_cases auto : x.modeCtl.mode = .auto
      · by_cases running : y.plan.state = .running <;> simp [auto, planHeld, running]
      · simp [auto]
    · rw [entry]
      exact enterMode_bypassed accepted (.inl rfl)
  · rw [if_neg enters] at entry
    have wDemand : stormDemand w = demand := by rw [entry, isDemand]
    have modeW : w.modeCtl.mode = x.modeCtl.mode := by rw [entry, mode]
    refine ⟨by rw [entry], by rw [entry], by rw [entry], by rw [entry], by rw [entry], by rw [entry], by rw [entry],
      by rw [modeW, wDemand, if_neg enters], by rw [wDemand, ← clear, entry], fun _ => entry, fun other => absurd modeW other, fun other => absurd modeW other⟩

/-- Settles O14: the sample up to the head, the Tide Monitor's three cases, and the storm demand judged last. -/
theorem levelSampleFormsHead : Obligations.LevelSampleFormsHead := by
  intro up dn s b img serving moment
  obtain ⟨accepted, counts⟩ := serving
  obtain ⟨v, isV⟩ : ∃ v, v = sampleMoment s := ⟨_, rfl⟩
  obtain ⟨x, sampled⟩ : ∃ x, x = sampleLevels img up dn v := ⟨_, rfl⟩
  obtain ⟨levelV, tideV, rowsV, planV, targetV, conditionV⟩ := sampleMoment_facts s
  rw [isV] at sampled
  obtain ⟨channels, levelX, modesX, frameX⟩ := sampled_levels sampled
  rw [← isV] at sampled levelV tideV rowsV planV targetV conditionV channels levelX modesX frameX
  have effects : effect (.levelSample up dn) s = setConditions x.modeCtl.condOrder x.modeCtl.condInput (levelStorms img.params x) x := by
    rw [effect_levelSample accepted, ← isV, sampled]
    rfl
  obtain ⟨y, isY, conditions⟩ := setConditions_cases x.modeCtl.condOrder x.modeCtl.condInput (levelStorms img.params x) x
  obtain ⟨w, isW⟩ : ∃ w, w = setConditions x.modeCtl.condOrder x.modeCtl.condInput (levelStorms img.params x) x := ⟨_, rfl⟩
  rw [← isW] at effects
  have entry := isW.trans conditions
  obtain ⟨t, run, frame, reported⟩ := exec_of_effect effects
  obtain ⟨blind, unsighted, sighted⟩ := sampled_tide (x := x) (by rw [sampled, sampleLevels_eq])
  have moved : v = nextSample b := by rw [isV, moment, sampleMoment]
  have sameV : v.line = b.line ∧ v.order = b.order ∧ v.grant = b.grant ∧ v.drive = b.drive ∧ v.loader = b.loader ∧ v.modeCtl = b.modeCtl := by
    rw [moved, nextSample]
    simp only [State.withClocks_line, State.withClocks_order, State.withClocks_grant, State.withClocks_drive, State.withClocks_loader,
      State.withClocks_modeCtl, and_self]
  obtain ⟨lineV, orderUnitV, grantV, driveV, loaderV, modesB⟩ := sameV
  obtain ⟨K, isK⟩ : ∃ K, K = selectLevels (levelsJudged img up dn v) := ⟨_, rfl⟩
  rw [← isK] at blind unsighted sighted levelX
  have beforeTide : K.tide = s.tide ∧ K.line = b.line ∧ K.order = b.order ∧ K.plan = s.plan := by
    rw [isK]
    simp only [selectLevels_tide, selectLevels_line, selectLevels_order, selectLevels_plan]
    rw [levelsJudged_frame]
    exact ⟨tideV, lineV, orderUnitV, planV⟩
  obtain ⟨tideB, lineB, orderB, planB⟩ := beforeTide
  have headK : K.level.head = x.level.head := by rw [levelX]
  rw [headK] at blind
  rw [headK, tideB, lineB] at unsighted
  have untouched : x.grant = b.grant ∧ x.drive = b.drive ∧ x.plan = s.plan ∧ x.target = s.target ∧ x.loader = b.loader := by
    rw [frameX]
    exact ⟨grantV, driveV, planV, targetV, loaderV⟩
  obtain ⟨grantX, driveX, planX, targetX, loaderX⟩ := untouched
  have modes : v.modeCtl.mode = s.modeCtl.mode ∧ v.modeCtl.condOrder = s.modeCtl.condOrder ∧ v.modeCtl.condInput = s.modeCtl.condInput ∧
      v.modeCtl.save = s.modeCtl.save ∧ stormDemand v = stormDemand s := by
    unfold stormDemand
    rw [modesB, moment, elapse_modeCtl]
    exact ⟨rfl, rfl, rfl, rfl, rfl⟩
  obtain ⟨modeV, orderV, inputV, saveV, demandV⟩ := modes
  have demandX : stormDemand x = stormDemand s := by
    rw [← demandV]
    unfold stormDemand
    rw [modesX]
  have acceptedY : acceptedImage y = some img := by
    rw [← accepted, ← acceptedImage_elapse (1000 - s.clocks.sample) s, ← moment, isY, acceptedImage, acceptedImage, loaderX]
  have clearY : y.modeCtl.stormClear =
      if x.modeCtl.condOrder || x.modeCtl.condInput || levelStorms img.params x then none
      else if stormDemand s = true ∧ s.modeCtl.mode = .storm then some 0 else b.modeCtl.stormClear := by
    have modeX : x.modeCtl.mode = s.modeCtl.mode := by rw [modesX, modeV]
    have clearX : x.modeCtl.stormClear = b.modeCtl.stormClear := by rw [modesX, modesB]
    rw [isY, ← demandX, ← modeX, ← clearX]
  obtain ⟨tideW, levelW, lineW, latchedW, condOrderW, condInputW, condLevelW, modeW, clearW, sameW, savedW, bypassedW⟩ :=
    storm_judged (img := img) (rest := if stormDemand s = true ∧ s.modeCtl.mode = .storm then some 0 else b.modeCtl.stormClear)
      (x := x) (y := y) (w := w) acceptedY entry (by rw [isY]) (by rw [isY]; rfl) clearY
  have levelT : t.level = x.level := by rw [frame]; exact levelW.trans (by rw [isY])
  have tideT : t.tide = x.tide := by rw [frame]; exact tideW.trans (by rw [isY])
  have lineY : w.line = x.line := lineW.trans (by rw [isY])
  rw [lineY] at reported
  have conditionT (c : ChannelId) : condition (channelKind c) t = condition (channelKind c) x := by
    have kept := condition_setConditions x.modeCtl.condOrder x.modeCtl.condInput (levelStorms img.params x) x (channelKind_lasts c)
    rw [← isW] at kept
    rw [frame]
    exact kept
  have modesT : t.modeCtl = w.modeCtl := by rw [frame]
  have demandT : stormDemand t = stormDemand w := by
    unfold stormDemand
    rw [modesT]
  have modeX : x.modeCtl.mode = s.modeCtl.mode := by rw [modesX, modeV]
  have saveX : x.modeCtl.save = s.modeCtl.save := by rw [modesX, saveV]
  rw [modeX] at modeW sameW savedW bypassedW
  refine ⟨t, run, fun channel => peerLevels_eq channel s, fun channel code rail good isCode isRail isGood => ?_, ?_, ?_, fun noHead => ?_,
    fun h count head => ?_, ?_, ?_, ?_, ?_, ?_, fun same => ?_, fun other unsaved => ?_, fun other => ?_, ?_⟩
  · have codes : code = codeOf channel up dn := by rcases isCode with ⟨rfl, rfl⟩ | ⟨rfl, rfl⟩ <;> rfl
    rw [codes] at isGood ⊢
    rw [isV] at sampled
    obtain ⟨ring, filtered, active, latched, run, used⟩ := sampled_channel sampled channel isGood
    obtain ⟨judgedChannel, judgedActive, -⟩ := channels channel
    rw [isV] at judgedChannel judgedActive
    have judgedFiltered :
        (channelOf channel x.level).filtered = (channelOf channel (levelsJudged img up dn (sampleMoment s)).level).filtered := by
      rw [judgedChannel]
      rfl
    have judgedPeers : peerLevels channel (levelsJudged img up dn (sampleMoment s)) = peerLevels channel s :=
      peerLevels_congr channel (by rw [levelsJudged_frame, ← isV]; exact rowsV)
    rw [isRail, levelT, conditionT]
    refine ⟨ring, filtered.trans (filteredOf_eq _), active, fun long inactive => ?_, run, ?_⟩
    · rw [modesT, latchedW, isY]
      exact latched long inactive
    · rw [used, selectLevel_eq, ← judgedFiltered, ← judgedActive, judgedPeers] <;> rfl
  · rw [levelT, levelX, isK]
    exact selectLevels_head _
  · rw [tideT, levelT]
    exact blind
  · rw [levelT] at noHead
    obtain ⟨tide, line⟩ := unsighted noHead
    rw [tideT]
    exact ⟨tide, line ▸ reported⟩
  · rw [levelT] at head
    obtain ⟨undecided, decided⟩ := sighted h count (headK.trans head)
    rw [tideB, lineB] at undecided decided
    rw [tideT]
    obtain ⟨sends, replaced⟩ : sendingTide K = sendingTide s ∧ b.line.tideReplaced = s.line.tideReplaced := by
      unfold sendingTide
      rw [lineB, moment, sending_elapse]
      exact ⟨rfl, tideReplaced_elapse _ s⟩
    refine ⟨fun window => ?_, fun window isCount => ⟨fun few => ?_, fun enough k toggles => ?_⟩⟩
    · obtain ⟨tide, line⟩ := undecided window
      exact ⟨tide, line ▸ reported⟩
    · obtain ⟨tide, line⟩ := (decided window isCount).1 few
      exact ⟨tide, line ▸ reported⟩
    · obtain ⟨tide, line⟩ := (decided window isCount).2 enough k toggles
      rw [latchAtEvent, tideB, planB] at tide
      rw [orderB, sends, replaced] at line
      exact ⟨tide, line ▸ reported⟩
  · rw [modesT, condLevelW, levelT, isY]
    change levelStorms img.params x = true ↔ ∃ u, x.level.dn.used = some u ∧ img.params.stormLevel ≤ u
    unfold levelStorms
    cases x.level.dn.used <;> simp
  · rw [modesT, condOrderW, isY, ← orderV, modesX]
  · rw [modesT, condInputW, isY, ← inputV, modesX]
  · rw [modesT, demandT]
    exact modeW
  · rw [modesT, demandT]
    exact clearW
  · rw [modesT] at same
    have all := sameW same
    rw [frame, all, isY]
    exact ⟨saveX, grantX, planX, targetX, driveX⟩
  · rw [modesT] at other
    obtain ⟨save, plan⟩ := savedW other (by rw [isY]; exact saveX.trans unsaved)
    have planT : t.plan = w.plan := by rw [frame]
    have planY : y.plan = s.plan := by rw [isY]; exact planX
    have expectedY : y.tide.expected = s.tide.expected := by
      rw [isY, sampled, sampleLevels_eq]
      exact (evalTide_expected ..).trans (by rw [← isK, tideB])
    rw [modesT, planT, save, plan, planContext, planY, expectedY]
    exact ⟨rfl, rfl⟩
  · rw [modesT] at other
    obtain ⟨drive, limited, grant⟩ := bypassedW other
    have yGrant : y.grant = b.grant := by rw [isY]; exact grantX
    have yDrive : y.drive = b.drive := by rw [isY]; exact driveX
    have yTarget : y.target = b.target := by rw [isY, moment, elapse_target]; exact targetX
    rw [yGrant] at limited grant
    rw [yTarget] at limited
    rw [frame]
    exact ⟨drive.trans yDrive, limited, grant⟩
  · have clocksV : v.clocks = { b.clocks with sample := b.clocks.sample - 1000 } := by
      rw [moved, nextSample, State.withClocks_clocks, Config.sampleMs]
    have sameB : v.position = b.position ∧ v.peers = b.peers ∧ v.pending = b.pending := by
      rw [moved, nextSample]
      simp only [State.withClocks_position, State.withClocks_peers, State.withClocks_pending, and_self]
    obtain ⟨positionV, peersV, pendingV⟩ := sameB
    have frameW : w = { y with target := w.target, grant := w.grant, drive := w.drive, plan := w.plan, modeCtl := w.modeCtl } := by
      rw [entry]
      split
      · exact enterMode_storm_frame y
      · rfl
    rw [frame, frameW, isY, frameX]
    exact state_ext loaderV positionV rfl rfl peersV orderUnitV rfl rfl rfl rfl rfl rfl clocksV pendingV

end Sys2Proof.Proofs
end

section
/-! SUPPORT. A control tick, block by block: the order of the evaluations, the sample of the keys, and what each block may move (R1, log 5). -/

namespace Sys2Proof.Proofs

open Sys2Proof.Machine Sys2Proof.Safety

/-! ### The order of the evaluations -/

theorem mem_firstOnly {b : Block} {bs : List Block} : b ∈ firstOnly bs ↔ b ∈ bs := by
  induction bs with
  | nil => rfl
  | cons c cs ih =>
    simp only [firstOnly, List.mem_cons, List.mem_filter, ih, bne_iff_ne]
    tauto

theorem nodup_firstOnly (bs : List Block) : (firstOnly bs).Nodup := by
  induction bs with
  | nil => exact .nil
  | cons c cs ih => exact List.nodup_cons.mpr ⟨by simp, ih.filter _⟩

theorem mem_tickOrder (named : List Block) (b : Block) : b ∈ tickOrder named :=
  mem_firstOnly.mpr (List.mem_append_right _ (by cases b <;> decide))

/-- A tick's order is what evaluates before a block, the block, and what evaluates after it. -/
theorem tickOrder_eq (inputs : TickInputs) (b : Block) : tickOrder inputs.order = blocksBefore inputs b ++ b :: blocksAfter inputs b := by
  have named := mem_tickOrder inputs.order b
  unfold blocksBefore blocksAfter
  generalize tickOrder inputs.order = bs at named
  induction bs with
  | nil => cases named
  | cons c cs ih =>
    by_cases same : c = b
    · subst same; simp
    · have later : b ∈ cs := (List.mem_cons.mp named).resolve_left (Ne.symm same)
      simpa [List.takeWhile_cons, List.dropWhile_cons, same] using ih later

theorem not_mem_blocksAfter (inputs : TickInputs) (b : Block) : b ∉ blocksAfter inputs b := by
  have once := nodup_firstOnly (inputs.order ++ Block.all)
  rw [show firstOnly (inputs.order ++ Block.all) = blocksBefore inputs b ++ b :: blocksAfter inputs b from tickOrder_eq inputs b] at once
  exact (List.nodup_cons.mp (List.nodup_append.mp once).2.1).1

theorem nodup_blocksAfter (inputs : TickInputs) (b : Block) : (blocksAfter inputs b).Nodup := by
  have once := nodup_firstOnly (inputs.order ++ Block.all)
  rw [show firstOnly (inputs.order ++ Block.all) = blocksBefore inputs b ++ b :: blocksAfter inputs b from tickOrder_eq inputs b] at once
  exact (List.nodup_cons.mp (List.nodup_append.mp once).2.1).2

theorem not_mem_blocksBefore (inputs : TickInputs) (b : Block) : b ∉ blocksBefore inputs b := fun mem => by
  have other := List.mem_takeWhile_imp mem
  simp at other

/-- A tick's evaluations around a block's. -/
theorem evalTick_around (img : Image) (inputs : TickInputs) (b : Block) (s : State) :
    evalTick img inputs s =
      restOfTick img inputs b (evalBlock img inputs b ((blocksBefore inputs b).foldl (fun t c => evalBlock img inputs c t) s)) := by
  rw [evalTick, tickOrder_eq inputs b, List.foldl_append, List.foldl_cons, restOfTick]

/-- A control tick is its rest after any block's turn. -/
theorem effect_controlTick {inputs : TickInputs} {s : State} {img : Image} (accepted : acceptedImage s = some img) (b : Block) :
    effect (.controlTick inputs) s = restOfTick img inputs b (afterTurn img inputs b s) := by
  have takes : effect (.controlTick inputs) s = takeTick inputs img s := by simp only [effect, accepted]
  rw [takes, takeTick, evalTick_around img inputs b]
  rfl

/-- What the evaluations of some blocks keep. -/
theorem foldl_evalBlock_keeps {P : State → Prop} {img : Image} {inputs : TickInputs} {bs : List Block} {s : State} (holds : P s)
    (keeps : ∀ c ∈ bs, ∀ t, P t → P (evalBlock img inputs c t)) : P (bs.foldl (fun t c => evalBlock img inputs c t) s) := by
  induction bs generalizing s with
  | nil => exact holds
  | cons c cs ih => exact ih (keeps c (by simp) s holds) fun d later => keeps d (List.mem_cons_of_mem c later)

/-! ### The sample of the keys -/

/-- The station with its keys and the STORM input sampled and the clear timer judged, before a transition (R148, R149, R156). -/
def keysSampled (maintKey localKey stormInput : Bool) (s : State) : State :=
  s.withModeCtl
    { s.modeCtl with
      maintKey := maintKey, localKey := localKey, stormInput := stormInput, condInput := stormInput
      stormClear :=
        if s.modeCtl.condOrder || stormInput || s.modeCtl.condLevel then none
        else if stormDemand s = true ∧ s.modeCtl.mode = .storm then some 0 else s.modeCtl.stormClear }

/-- The mode that a sample gives (R149, R150). -/
def modeSampled (maintKey localKey stormInput : Bool) (s : State) : Mode :=
  match s.modeCtl.mode with
  | .auto | .loc =>
    if s.modeCtl.condOrder || stormInput || s.modeCtl.condLevel then .storm
    else if maintKey then .maint else if localKey then .loc else .auto
  | .maint =>
    if maintKey then .maint
    else if s.modeCtl.condOrder || stormInput || s.modeCtl.condLevel then .storm
    else if maintKey then .maint else if localKey then .loc else .auto
  | m => m

theorem keyMode_keysSampled (maintKey localKey stormInput : Bool) (s : State) :
    keyMode (keysSampled maintKey localKey stormInput s) = if maintKey then .maint else if localKey then .loc else .auto := rfl

theorem stormDemand_keysSampled (maintKey localKey stormInput : Bool) (s : State) :
    stormDemand (keysSampled maintKey localKey stormInput s) = (s.modeCtl.condOrder || stormInput || s.modeCtl.condLevel) := rfl

theorem stormDemand_enterStorm (s : State) : stormDemand (enterMode .storm s) = stormDemand s := by
  obtain ⟨-, -, -, -, modes⟩ := enterMode_storm s
  unfold stormDemand
  rw [modes]

/-- The mode that keys alone give (R149). -/
def modeOfKeys (maintKey localKey : Bool) : Mode := if maintKey then .maint else if localKey then .loc else .auto

theorem sampleKeys_eq (maintKey localKey stormInput : Bool) (s : State) :
    sampleKeys maintKey localKey stormInput s =
      if s.modeCtl.mode = modeSampled maintKey localKey stormInput s then keysSampled maintKey localKey stormInput s
      else enterMode (modeSampled maintKey localKey stormInput s) (keysSampled maintKey localKey stormInput s) := by
  have conditions :
      setConditions s.modeCtl.condOrder stormInput s.modeCtl.condLevel
          (s.withModeCtl { s.modeCtl with maintKey := maintKey, localKey := localKey, stormInput := stormInput }) =
        if (s.modeCtl.condOrder || stormInput || s.modeCtl.condLevel) = true ∧ (s.modeCtl.mode = .auto ∨ s.modeCtl.mode = .loc) then
          enterMode .storm (keysSampled maintKey localKey stormInput s)
        else keysSampled maintKey localKey stormInput s := by
    obtain ⟨x, rfl, judged⟩ := setConditions_cases s.modeCtl.condOrder stormInput s.modeCtl.condLevel
      (s.withModeCtl { s.modeCtl with maintKey := maintKey, localKey := localKey, stormInput := stormInput })
    exact judged
  have keys := keyMode_keysSampled maintKey localKey stormInput s
  have demands := stormDemand_keysSampled maintKey localKey stormInput s
  have mode : (keysSampled maintKey localKey stormInput s).modeCtl.mode = s.modeCtl.mode := rfl
  unfold sampleKeys modeSampled
  dsimp only
  rw [conditions]
  generalize keysSampled maintKey localKey stormInput s = k at keys demands mode
  generalize (s.modeCtl.condOrder || stormInput || s.modeCtl.condLevel) = demand at demands
  cases state : s.modeCtl.mode with
  | start => rw [state] at mode; simp
  | fault => rw [state] at mode; simp
  | storm => rw [state] at mode; simp
  | auto =>
    rw [state] at mode
    cases demand with
    | true => simp [stormDemand_enterStorm, demands]
    | false => simp [demands, keys, mode, eq_comm]
  | loc =>
    rw [state] at mode
    cases demand with
    | true => simp [stormDemand_enterStorm, demands]
    | false => simp [demands, keys, mode, eq_comm]
  | maint =>
    cases maintKey with
    | true => simp
    | false => cases demand <;> cases localKey <;> simp [demands, keys]

/-! ### Conditions that a transition or a plan leaves alone -/

/-- A kind whose condition neither the end of a move nor the Plan Sequencer moves. -/
def Lasts (k : FaultKind) : Prop := (k ≠ .pump ∧ k ≠ .stall ∧ k ≠ .valveL ∧ k ≠ .valveR) ∧ k ≠ .planBad

theorem condition_planOnly {k : FaultKind} {s t : State} (lasts : Lasts k) (h : PlanOnly s.modeCtl t.modeCtl) : condition k t = condition k s :=
  (h.2 k lasts.2).1

theorem condition_standStill {k : FaultKind} (s : State) (lasts : Lasts k) : condition k (standStill s) = condition k s := by
  rw [condition, standStill_modeCtl]
  exact hasFault_moveConditionsEnded _ lasts.1

theorem condition_haltStop {k : FaultKind} (s : State) (lasts : Lasts k) : condition k (haltStop s) = condition k s := by
  unfold haltStop
  split
  · rfl
  · exact condition_standStill (setpointToOpening s) lasts
  · exact condition_standStill s lasts

theorem condition_claimAtTransition {k : FaultKind} (new : Mode) (s : State) (lasts : Lasts k) :
    condition k (claimAtTransition new s) = condition k s := by
  have still := condition_standStill s lasts
  have halted := condition_standStill (setpointToOpening s) lasts
  have unbypassed : condition k (claimAtTransition .auto s) = condition k s := by
    unfold claimAtTransition
    dsimp only
    split
    · split
      · exact still
      · exact halted
      · rfl
    · rfl
  have bypassed (lead : Mode) (goal : lead = .storm ∨ lead = .maint) : condition k (claimAtTransition lead s) = condition k s := by
    rcases goal with rfl | rfl <;>
    · unfold claimAtTransition
      dsimp only
      split
      · rfl
      · exact still
      · split <;> rfl
      · rfl
  cases new with
  | start => rfl
  | fault => exact still
  | storm => exact bypassed .storm (.inl rfl)
  | maint => exact bypassed .maint (.inr rfl)
  | auto => exact unbypassed
  | loc => exact unbypassed

theorem takeStep_refill_planOnly {m : ModeCtl} {s : State} (h : s.modeCtl = m) : PlanOnly m (takeStep (refill s)).modeCtl :=
  h ▸ (refill_modeCtl s).trans (takeStep_modeCtl _)

theorem adjustRestored_planOnly (m : Mode) (s : State) : PlanOnly s.modeCtl (adjustRestored m s).modeCtl := by
  unfold adjustRestored
  split
  · split
    · exact takeStep_refill_planOnly (s := s.withPlan _) rfl
    · rw [holdPlan_modeCtl]; exact .refl _
  · exact .refl _
  · exact .refl _

theorem condition_restoreInto {k : FaultKind} (new : Mode) (s : State) (lasts : Lasts k) : condition k (restoreInto new s) = condition k s := by
  unfold restoreInto
  split
  · cases held : s.modeCtl.save with
    | none => simp only [restoreSave, held]
    | some c =>
      rw [restoreSave_of_save new held]
      exact condition_planOnly (s := saveRestored c s) lasts (adjustRestored_planOnly new (saveRestored c s))
  · rfl

theorem condition_enterAuto {k : FaultKind} (s : State) (lasts : Lasts k) : condition k (enterAuto s) = condition k s := by
  have halted : condition k (if haltInForce s then haltStop s else s) = condition k s := by
    split
    · exact condition_haltStop s lasts
    · rfl
  unfold enterAuto
  generalize (if haltInForce s then haltStop s else s) = t at halted
  dsimp only
  split
  · exact (condition_planOnly (s := t.withOrder _) lasts (takePlanAction_modeCtl _)).trans halted
  · exact halted

/-- The conditions of a lasting kind stay through a transition of the mode. -/
theorem condition_enterMode {k : FaultKind} (new : Mode) (s : State) (lasts : Lasts k) : condition k (enterMode new s) = condition k s := by
  have saved : condition k (setMode new (takeStormSave new s)) = condition k s := by
    unfold takeStormSave
    split <;> rfl
  have claimed := (condition_claimAtTransition new (setMode new (takeStormSave new s)) lasts).trans saved
  have held :
      condition k
          (if s.modeCtl.mode = .auto then holdPlan (claimAtTransition new (setMode new (takeStormSave new s)))
           else claimAtTransition new (setMode new (takeStormSave new s))) = condition k s := by
    split
    · rw [condition, holdPlan_modeCtl]; exact claimed
    · exact claimed
  have restored := (condition_restoreInto new _ lasts).trans held
  unfold enterMode
  dsimp only
  split
  · exact (condition_enterAuto _ lasts).trans restored
  · exact restored

theorem stepDone_planOnly (img : Image) (s : State) : PlanOnly s.modeCtl (stepDone img s).modeCtl := by
  unfold stepDone
  split
  · exact .refl _
  · split
    · rw [endPlan_modeCtl]; exact .refl _
    · split
      · exact .refl _
      · exact takeStep_modeCtl (setMark (s.withPlan _))

theorem tidePhase_planOnly (img : Image) (s : State) : PlanOnly s.modeCtl (tidePhase img s).modeCtl := by
  unfold tidePhase
  split
  · exact .refl _
  · split
    · split
      · exact stepDone_planOnly img (s.withTide _)
      · exact .refl _
    · exact stepDone_planOnly img s

/-- The Plan Sequencer's evaluation moves PLAN_BAD alone of the fault sets (R129, R130). -/
theorem evalPlan_planOnly (img : Image) (s : State) : PlanOnly s.modeCtl (evalPlan img s).modeCtl := by
  have tide (t : State) : PlanOnly t.modeCtl (enterTide img t).modeCtl := tidePhase_planOnly img (t.withPlan _)
  unfold evalPlan
  split
  · split
    · split
      · unfold enterDwell
        split
        · exact tide (s.withPlan _)
        · exact .refl _
      · exact .refl _
    · dsimp only
      split
      · exact tide (s.withPlan _)
      · exact .refl _
    · exact tidePhase_planOnly img s
    · exact .refl _
  · exact .refl _

/-! ### What a block's evaluation may move -/

/-- Of the Mode Controller the fault sets alone have moved. -/
abbrev SetsOnly (m m' : ModeCtl) : Prop := m' = { m with active := m'.active, latched := m'.latched, firstFault := m'.firstFault }

/-- A stop-class fault has taken a station in service to FAULT (R151). -/
abbrev Faulted (s t : State) : Prop := canFault s.modeCtl.mode = true ∧ t.modeCtl.mode = .fault

theorem raise_moves (ks : List FaultKind) (s : State) :
    raise ks s = { s with modeCtl := (raise ks s).modeCtl } ∧ SetsOnly s.modeCtl (raise ks s).modeCtl ∨ Faulted s (raise ks s) := by
  unfold raise
  split
  · next enters =>
    simp only [Bool.and_eq_true] at enters
    exact .inr ⟨enters.1, (enterMode_fields ..).1⟩
  · exact .inl ⟨rfl, rfl⟩

/-- The Grant Unit's evaluation (R91 to R100), but for a PUMP fault that stops the station. -/
abbrev GrantMoves (s t : State) : Prop :=
  t = { s with
        grant := t.grant, drive := t.drive, target := { s.target with limited := t.target.limited }, modeCtl := t.modeCtl } ∧
  SetsOnly s.modeCtl t.modeCtl

theorem standStill_moves (s : State) : GrantMoves s (standStill s) := by
  refine ⟨?_, by rw [standStill_modeCtl]⟩
  unfold standStill
  split <;> rfl

theorem judgePump_moves {s t : State} (img : Image) (h : GrantMoves s t) : GrantMoves s (judgePump img t) ∨ Faulted s (judgePump img t) := by
  obtain ⟨frame, sets⟩ := h
  unfold judgePump
  split
  · rcases raise_moves [.pump] t with ⟨raised, moved⟩ | ⟨serves, faulted⟩
    · refine .inl ⟨?_, ?_⟩
      · rw [raised, frame]
      · rw [moved, sets]
    · rw [sets] at serves
      exact .inr ⟨serves, faulted⟩
  · exact .inl ⟨frame, sets⟩

theorem startPump_moves (s : State) : GrantMoves s (startPump s) := by
  unfold startPump
  split <;> exact ⟨rfl, rfl⟩

/-- What the Grant Unit's evaluation comes to (R91 to R100): nothing, the end of a claim, a move of it, or the pump judged. -/
theorem evalGrant_cases {Q : State → Prop} {img : Image} {s : State} (pumpReady : Bool) (same : Q s) (still : Q (standStill s))
    (moves : ∀ t, ClaimMoves img s t → Q t) (pumps : Q (judgePump img (startPump s)))
    (ends : s.grant.moveState = .moving → ∀ limited, Q (setLimited limited (standStill s))) : Q (evalGrant img pumpReady s) := by
  have proceeds (warns : s.grant.moveState = .warn) : Q (proceed img pumpReady s) := by
    unfold proceed
    split
    · exact same
    · split
      · exact moves _ (.moves warns)
      · exact pumps
  unfold evalGrant
  split
  · next stands =>
    unfold evalStill
    split
    · split
      · exact same
      · next granted => exact moves _ (.want stands granted)
      · next lead bypassed => exact moves _ (.bypass lead stands bypassed)
    · exact same
  · next wants =>
    unfold evalWant
    split
    · exact still
    · split
      · exact same
      · split
        · exact moves _ (.warn _ wants)
        · exact same
  · next warns =>
    unfold evalWarn
    split
    · split
      · exact still
      · exact proceeds warns
    · next granted =>
      split
      · exact still
      · split
        · exact moves _ (.yields warns granted)
        · exact proceeds warns
  · next moving =>
    unfold evalMoving
    split
    · exact ends moving _
    · unfold pumpInMotion
      split
      · exact moves _ (.pumped moving)
      · exact pumps

theorem evalGrant_moves (img : Image) (pumpReady : Bool) (s : State) :
    GrantMoves s (evalGrant img pumpReady s) ∨ Faulted s (evalGrant img pumpReady s) := by
  refine evalGrant_cases (Q := fun t => GrantMoves s t ∨ Faulted s t) pumpReady (.inl ⟨rfl, rfl⟩) (.inl (standStill_moves s))
    (fun t moves => .inl ?_) (judgePump_moves img (startPump_moves s)) fun _ limited => .inl ?_
  · cases moves with
    | pumps => exact startPump_moves s
    | _ => exact ⟨rfl, rfl⟩
  · obtain ⟨frame, sets⟩ := standStill_moves s
    refine ⟨?_, sets⟩
    rw [setLimited, frame]
    rfl

/-- The Drive Unit's evaluation (R106), but for a fault that stops the station. -/
abbrev DriveMoves (s t : State) : Prop := t = { s with drive := t.drive, modeCtl := t.modeCtl } ∧ SetsOnly s.modeCtl t.modeCtl

theorem evalDrive_moves (img : Image) (readbackL readbackR : Half) (s : State) :
    DriveMoves s (evalDrive img readbackL readbackR s) ∨ Faulted s (evalDrive img readbackL readbackR s) := by
  have before : DriveMoves s (clearSkew img (driven img readbackL readbackR s)) := by
    rw [driven_frame]
    unfold clearSkew
    split <;> exact ⟨rfl, rfl⟩
  rw [evalDrive_eq]
  generalize clearSkew img (driven img readbackL readbackR s) = x at before
  obtain ⟨frame, sets⟩ := before
  rcases raise_moves (driveFaults img
      ((checkReadback img readbackL readbackR s).grant.moveState == .moving &&
        stallRunsOut img (driven img readbackL readbackR s).drive.base s.position.opening
          (checkReadback img readbackL readbackR s).drive.stall)
      (driven img readbackL readbackR s)) x with ⟨raised, moved⟩ | ⟨serves, faulted⟩
  · refine .inl ⟨?_, ?_⟩
    · rw [raised, frame]
    · rw [moved, sets]
  · rw [sets] at serves
    exact .inr ⟨serves, faulted⟩

/-- The Plan Sequencer's operations (R123 to R141): the plan, the tide's latch and expected kind, the step start opening, PLAN_BAD and the
mark. -/
abbrev PlanMoves (s t : State) : Prop :=
  t = { s with
        plan := t.plan, tide := t.tide, target := { s.target with stepStart := t.target.stepStart }, modeCtl := t.modeCtl, line := t.line }

theorem planMoves_trans {s t u : State} (h : PlanMoves s t) (g : PlanMoves t u) : PlanMoves s u := by
  unfold PlanMoves at g
  rw [h] at g
  exact g

theorem failPlan_moves (s : State) : PlanMoves s (failPlan s) := rfl

theorem refill_moves (s : State) : PlanMoves s (refill s) := by
  unfold refill
  split
  · rfl
  · split
    · split
      · rfl
      · exact failPlan_moves s
    · rfl

theorem takeStep_moves (s : State) : PlanMoves s (takeStep s) := by
  unfold takeStep
  split
  · rfl
  · split
    · split
      · exact planMoves_trans (t := beginStep _ _ _ s) rfl (refill_moves _)
      · split <;> rfl
    · rfl

theorem stepDone_moves (img : Image) (s : State) : PlanMoves s (stepDone img s) := by
  unfold stepDone
  split
  · rfl
  · split
    · rfl
    · split
      · rfl
      · exact planMoves_trans (t := setMark (s.withPlan _)) rfl (takeStep_moves _)

theorem tidePhase_moves (img : Image) (s : State) : PlanMoves s (tidePhase img s) := by
  unfold tidePhase
  split
  · rfl
  · split
    · split
      · exact planMoves_trans (t := s.withTide _) rfl (stepDone_moves img _)
      · rfl
    · exact stepDone_moves img s

theorem enterTide_moves (img : Image) (s : State) : PlanMoves s (enterTide img s) :=
  planMoves_trans (t := s.withPlan _) rfl (tidePhase_moves img _)

theorem evalPlan_moves (img : Image) (s : State) : PlanMoves s (evalPlan img s) := by
  unfold evalPlan
  split
  · split
    · split
      · unfold enterDwell
        split
        · exact planMoves_trans (t := s.withPlan _) rfl (enterTide_moves img _)
        · rfl
      · rfl
    · dsimp only
      split
      · exact planMoves_trans (t := s.withPlan _) rfl (enterTide_moves img _)
      · rfl
    · exact tidePhase_moves img s
    · rfl
  · rfl

/-- What the evaluation of a block moves while the mode stays. -/
def BlockMoves (c : Block) (s t : State) : Prop :=
  match c with
  | .position =>
    t = { s with
          position :=
            { s.position with
              left := t.position.left, right := t.position.right, upperTaken := t.position.upperTaken, lowerTaken := t.position.lowerTaken } }
  | .mode => t = { s with modeCtl := t.modeCtl }
  | .target =>
    t = { s with
          target := { t.target with limited := s.target.limited, stepStart := stepStartNow s }, plan := { s.plan with aimJudged := true } }
  | .grant =>
    t = { s with
          grant := t.grant, drive := t.drive, target := { s.target with limited := t.target.limited }, modeCtl := t.modeCtl
          clocks := t.clocks }
  | .drive => t = { s with drive := t.drive, modeCtl := t.modeCtl, clocks := t.clocks }
  | .plan =>
    t = { s with
          plan := t.plan, tide := t.tide, target := { s.target with stepStart := t.target.stepStart }, modeCtl := t.modeCtl
          line := t.line, clocks := t.clocks }

section
variable (img : Image) (inputs : TickInputs)

/-- A block whose turn was made ahead of its tick leaves nothing but the note of it changed (log 26). -/
theorem unlessAhead_cases {Q : State → Prop} {f : State → State} {s : State} (ahead : Nat) (stays : Q s) (acts : Q (f s)) :
    Q (unlessAhead ahead f s) := by
  unfold unlessAhead
  split
  · exact stays
  · exact acts

/-- A block but the Mode Controller changes the mode by a stop-class fault alone (R151). -/
theorem evalBlock_mode {c : Block} {s : State} (other : c ≠ .mode) :
    (evalBlock img inputs c s).modeCtl.mode = s.modeCtl.mode ∧ BlockMoves c s (evalBlock img inputs c s) ∨
      Faulted s (evalBlock img inputs c s) := by
  cases c with
  | mode => exact absurd rfl other
  | position => exact .inl ⟨rfl, rfl⟩
  | target => exact .inl ⟨rfl, rfl⟩
  | grant =>
    refine unlessAhead_cases (Q := fun t => t.modeCtl.mode = s.modeCtl.mode ∧ BlockMoves .grant s t ∨ Faulted s t) _ (.inl ⟨rfl, rfl⟩) ?_
    rcases evalGrant_moves img inputs.pumpReady (setGrantAhead (s.clocks.grantAhead - Config.tickMs) s) with ⟨frame, sets⟩ | faulted
    · refine .inl ⟨by rw [sets]; rfl, ?_⟩
      unfold BlockMoves
      rw [evalGrant_clocks]
      exact frame
    · exact .inr faulted
  | drive =>
    refine unlessAhead_cases (Q := fun t => t.modeCtl.mode = s.modeCtl.mode ∧ BlockMoves .drive s t ∨ Faulted s t) _ (.inl ⟨rfl, rfl⟩) ?_
    rcases evalDrive_moves img inputs.readbackL inputs.readbackR (setDriveAhead (s.clocks.driveAhead - Config.tickMs) s) with
      ⟨frame, sets⟩ | faulted
    · refine .inl ⟨by rw [sets]; rfl, ?_⟩
      unfold BlockMoves
      rw [evalDrive_clocks]
      exact frame
    · exact .inr faulted
  | plan =>
    refine unlessAhead_cases (Q := fun t => t.modeCtl.mode = s.modeCtl.mode ∧ BlockMoves .plan s t ∨ Faulted s t) _ (.inl ⟨rfl, rfl⟩) ?_
    refine .inl ⟨(evalPlan_planOnly img _).fields.1, ?_⟩
    unfold BlockMoves
    rw [evalPlan_clocks]
    exact evalPlan_moves img _

/-- The Mode Controller moves nothing but itself while the mode stays. -/
theorem sampleKeys_moves {maintKey localKey stormInput : Bool} {s : State}
    (same : (sampleKeys maintKey localKey stormInput s).modeCtl.mode = s.modeCtl.mode) :
    sampleKeys maintKey localKey stormInput s = keysSampled maintKey localKey stormInput s := by
  rw [sampleKeys_eq] at same ⊢
  split at same
  · next stays => rw [if_pos stays]
  · next enters => exact absurd ((enterMode_fields ..).1.symm.trans same).symm enters

theorem evalBlock_moves {c : Block} {s : State} (same : (evalBlock img inputs c s).modeCtl.mode = s.modeCtl.mode) :
    BlockMoves c s (evalBlock img inputs c s) := by
  by_cases keys : c = .mode
  · subst keys
    have sampled : evalBlock img inputs .mode s = keysSampled inputs.maintKey inputs.localKey inputs.stormInput s := sampleKeys_moves same
    rw [sampled]
    rfl
  · rcases evalBlock_mode img inputs keys with ⟨-, moves⟩ | ⟨serves, faulted⟩
    · exact moves
    · rw [← same, faulted] at serves
      cases serves

/-- FAULT stays through a tick (R151). -/
theorem evalBlock_fault (c : Block) {s : State} (fault : s.modeCtl.mode = .fault) : (evalBlock img inputs c s).modeCtl.mode = .fault := by
  by_cases keys : c = .mode
  · subst keys
    change (sampleKeys ..).modeCtl.mode = _
    rw [sampleKeys_eq, if_pos (by simp only [modeSampled, fault])]
    exact fault
  · rcases evalBlock_mode img inputs keys with ⟨same, -⟩ | ⟨-, faulted⟩
    · exact same.trans fault
    · exact faulted

theorem foldl_evalBlock_fault (bs : List Block) {s : State} (fault : s.modeCtl.mode = .fault) :
    (bs.foldl (fun t c => evalBlock img inputs c t) s).modeCtl.mode = .fault :=
  foldl_evalBlock_keeps (P := fun t => t.modeCtl.mode = .fault) fault fun c _ _ => evalBlock_fault img inputs c

/-- Without the Mode Controller's turn a mode stays, or becomes FAULT. -/
theorem foldl_evalBlock_mode {bs : List Block} {s : State} (other : .mode ∉ bs) :
    (bs.foldl (fun t c => evalBlock img inputs c t) s).modeCtl.mode = s.modeCtl.mode ∨
      (bs.foldl (fun t c => evalBlock img inputs c t) s).modeCtl.mode = .fault := by
  refine foldl_evalBlock_keeps (P := fun t => t.modeCtl.mode = s.modeCtl.mode ∨ t.modeCtl.mode = .fault) (.inl rfl) fun c mem t h => ?_
  rcases h with same | fault
  · have notMode : c ≠ .mode := by rintro rfl; exact other mem
    rcases evalBlock_mode img inputs (s := t) notMode with ⟨stays, -⟩ | ⟨-, faulted⟩
    · exact .inl (stays.trans same)
    · exact .inr faulted
  · exact .inr (evalBlock_fault img inputs c fault)

/-- A mode that a tick ends with was not left on the way: no transition of a tick is taken back. -/
theorem mode_after_first {c : Block} {cs : List Block} {s : State} (once : (c :: cs).Nodup)
    (same : ((c :: cs).foldl (fun t d => evalBlock img inputs d t) s).modeCtl.mode = s.modeCtl.mode) :
    (evalBlock img inputs c s).modeCtl.mode = s.modeCtl.mode := by
  have faults (entered : (evalBlock img inputs c s).modeCtl.mode = .fault) : (evalBlock img inputs c s).modeCtl.mode = s.modeCtl.mode :=
    entered.trans ((foldl_evalBlock_fault img inputs cs entered).symm.trans same)
  by_cases keys : c = .mode
  · rcases foldl_evalBlock_mode img inputs (s := evalBlock img inputs c s) (keys ▸ (List.nodup_cons.mp once).1) with stays | fault
    · exact stays.symm.trans same
    · have before : s.modeCtl.mode = .fault := same.symm.trans fault
      exact faults (evalBlock_fault img inputs c before)
  · rcases evalBlock_mode img inputs (s := s) keys with ⟨stays, -⟩ | ⟨-, faulted⟩
    · exact stays
    · exact faults faulted

/-- What each block's own moves make of a station whose mode the blocks leave as it was. -/
theorem foldl_evalBlock_moves {R : State → State → Prop} {bs : List Block} {s : State} (once : bs.Nodup)
    (same : (bs.foldl (fun t d => evalBlock img inputs d t) s).modeCtl.mode = s.modeCtl.mode) (refl : ∀ t, R t t)
    (trans : ∀ t u v, R t u → R u v → R t v) (moves : ∀ c ∈ bs, ∀ t u, BlockMoves c t u → R t u) :
    R s (bs.foldl (fun t d => evalBlock img inputs d t) s) := by
  induction bs generalizing s with
  | nil => exact refl s
  | cons c cs ih =>
    have first := mode_after_first img inputs once same
    exact trans _ _ _ (moves c (by simp) _ _ (evalBlock_moves img inputs first))
      (ih (List.nodup_cons.mp once).2 (same.trans first.symm) fun d mem => moves d (List.mem_cons_of_mem c mem))

end

end Sys2Proof.Proofs
end

section
/-! SUPPORT. The Drive Unit's limits, and its evaluation at a control tick (O54). -/

namespace Sys2Proof.Proofs

open Sys2Proof.Machine Sys2Proof.Safety

/-! ### What a tick's blocks leave of a kind -/

/-- A kind's condition stays, and the kind stays latched. -/
def KindStays (k : FaultKind) (s t : State) : Prop :=
  condition k t = condition k s ∧ (hasFault k s.modeCtl.latched = true → hasFault k t.modeCtl.latched = true)

theorem KindStays.refl (k : FaultKind) (s : State) : KindStays k s s := ⟨rfl, id⟩

theorem KindStays.trans {k : FaultKind} {s t u : State} (h : KindStays k s t) (g : KindStays k t u) : KindStays k s u :=
  ⟨g.1.trans h.1, g.2 ∘ h.2⟩

theorem KindStays.of_modeCtl {k : FaultKind} {s t : State} (same : t.modeCtl = s.modeCtl) : KindStays k s t := by
  unfold KindStays condition
  rw [same]
  exact ⟨rfl, id⟩

section
variable {k : FaultKind} (lasts : Lasts k)
include lasts

theorem kindStays_planOnly {s t : State} (h : PlanOnly s.modeCtl t.modeCtl) : KindStays k s t :=
  ⟨condition_planOnly lasts h, fun latched => (h.2 k lasts.2).2.trans latched⟩

theorem kindStays_enterMode (new : Mode) (s : State) : KindStays k s (enterMode new s) := by
  obtain ⟨-, latched, -⟩ := enterMode_faults new s
  exact ⟨condition_enterMode new s lasts, fun held => (hasFault_of_dropFault_eq latched lasts.2).trans held⟩

theorem kindStays_standStill (s : State) : KindStays k s (standStill s) :=
  ⟨condition_standStill s lasts, fun latched => by rw [standStill_modeCtl]; exact latched⟩

/-- What is raised beside a kind leaves it alone. -/
theorem kindStays_raise {ks : List FaultKind} (s : State) (other : k ∉ ks) : KindStays k s (raise ks s) := by
  have latches : hasFault k s.modeCtl.latched = true → hasFault k (latchKinds ks s).modeCtl.latched = true := fun latched => by
    rw [hasFault_latchKinds_latched, latched, Bool.true_or]
  refine ⟨?_, fun latched => ?_⟩
  · rw [condition_raise ks s lasts.1, decide_eq_false other, Bool.or_false]
  · unfold raise
    split
    · exact (kindStays_enterMode lasts .fault _).2 (latches latched)
    · exact latches latched

theorem kindStays_judgePump (img : Image) (s : State) : KindStays k s (judgePump img s) := by
  unfold judgePump
  split
  · exact kindStays_raise lasts s (by simp [lasts.1.1])
  · exact .refl k s

omit lasts in
theorem startPump_modeCtl (s : State) : (startPump s).modeCtl = s.modeCtl := by
  unfold startPump
  split <;> rfl

theorem kindStays_startPump (img : Image) (s : State) : KindStays k s (judgePump img (startPump s)) :=
  .trans (.of_modeCtl (startPump_modeCtl s)) (kindStays_judgePump lasts img (startPump s))

theorem kindStays_evalGrant (img : Image) (pumpReady : Bool) (s : State) : KindStays k s (evalGrant img pumpReady s) := by
  have still := kindStays_standStill lasts s
  refine evalGrant_cases pumpReady (.refl k s) still (fun t moves => ?_) (kindStays_startPump lasts img s)
    fun _ limited => still.trans (.of_modeCtl rfl)
  cases moves with
  | pumps => exact .of_modeCtl (startPump_modeCtl s)
  | _ => exact .of_modeCtl rfl

theorem kindStays_sampleKeys (maintKey localKey stormInput : Bool) (s : State) : KindStays k s (sampleKeys maintKey localKey stormInput s) := by
  have sampled : KindStays k s (keysSampled maintKey localKey stormInput s) := ⟨rfl, id⟩
  rw [sampleKeys_eq]
  split
  · exact sampled
  · exact sampled.trans (kindStays_enterMode lasts _ _)

/-- A block but the Drive Unit leaves a lasting kind alone. -/
theorem kindStays_evalBlock (img : Image) (inputs : TickInputs) {c : Block} (s : State) (other : c ≠ .drive) :
    KindStays k s (evalBlock img inputs c s) := by
  cases c with
  | drive => exact absurd rfl other
  | position => exact .of_modeCtl rfl
  | target => exact .of_modeCtl rfl
  | mode => exact kindStays_sampleKeys lasts _ _ _ s
  | grant =>
    have turned : KindStays k s (setGrantAhead (s.clocks.grantAhead - Config.tickMs) s) := .of_modeCtl rfl
    exact unlessAhead_cases _ turned (turned.trans (kindStays_evalGrant lasts img _ _))
  | plan =>
    have turned : KindStays k s (setPlanAhead (s.clocks.planAhead - Config.tickMs) s) := .of_modeCtl rfl
    exact unlessAhead_cases _ turned (turned.trans (kindStays_planOnly lasts (evalPlan_planOnly img _)))

end

/-! ### The moment of a tick -/

/-- The evaluations ahead of the tick, as a block's turn finds them (log 26). -/
theorem atTurn_ahead (img : Image) (inputs : TickInputs) (b : Block) (s : State) :
    (b = .grant → (atTurn img inputs b s).clocks.grantAhead = s.clocks.grantAhead) ∧
      (b = .drive → (atTurn img inputs b s).clocks.driveAhead = s.clocks.driveAhead) ∧
      (b = .plan → (atTurn img inputs b s).clocks.planAhead = s.clocks.planAhead) := by
  have begins : (tickBegins img inputs s).clocks.grantAhead = s.clocks.grantAhead ∧
      (tickBegins img inputs s).clocks.driveAhead = s.clocks.driveAhead ∧
      (tickBegins img inputs s).clocks.planAhead = s.clocks.planAhead := by
    unfold tickBegins
    rw [endOpenReads_clocks, nextTick, State.withClocks_clocks, hearLine_clocks, runOn]
    unfold elapse
    dsimp only
    split
    · exact ⟨rfl, rfl, rfl⟩
    · dsimp only
      split <;> exact ⟨rfl, rfl, rfl⟩
  obtain ⟨grant, drive, plan⟩ := begins
  have kept (P : State → Prop) (start : P (tickBegins img inputs s)) (keeps : ∀ c, c ≠ b → ∀ t, P t → P (evalBlock img inputs c t)) :
      P (atTurn img inputs b s) :=
    foldl_evalBlock_keeps start fun c mem => keeps c fun same => not_mem_blocksBefore inputs b (same ▸ mem)
  refine ⟨fun own => ?_, fun own => ?_, fun own => ?_⟩
  · refine kept (fun t => t.clocks.grantAhead = s.clocks.grantAhead) grant fun c other t h => ?_
    rw [evalBlock_clocks]
    exact (if_neg (own ▸ other)).trans h
  · refine kept (fun t => t.clocks.driveAhead = s.clocks.driveAhead) drive fun c other t h => ?_
    rw [evalBlock_clocks]
    exact (if_neg (own ▸ other)).trans h
  · refine kept (fun t => t.clocks.planAhead = s.clocks.planAhead) plan fun c other t h => ?_
    rw [evalBlock_clocks]
    exact (if_neg (own ▸ other)).trans h

theorem unlessAhead_of_behind {f : State → State} {ahead : Nat} (s : State) (behind : ahead < 60) : unlessAhead ahead f s = f s :=
  if_neg (Nat.not_le.mpr behind)

/-! ### The formulas -/

theorem ramp_eq (setpoint goal speed : Nat) :
    (goal ≤ setpoint → ramp setpoint goal speed = max goal (setpoint - speed)) ∧
      (setpoint ≤ goal → ramp setpoint goal speed = min goal (setpoint + speed)) := by
  unfold ramp
  constructor <;> intro side <;> split <;> first | omega | (split <;> omega)

theorem baseCommand_eq (kp setpoint opening : Nat) :
    baseCommand kp (controlError setpoint opening) =
      max (-1000) (min 1000 ((((setpoint : Int) - (opening : Int) * 1000) * kp).tdiv 1000)) :=
  clampInt_eq_max_min (by decide)

/-- The base command of a side with its trim (R111). -/
def trimmed (d : Side) (base trim : Int) : Int := match d with | .left => base - trim | .right => base + trim

theorem valveCommand_eq (d : Side) (base trim : Int) (upper lower : Bool) (sum : Int) (isSum : sum = trimmed d base trim) :
    valveCommand d base trim upper lower =
      if upper = true ∧ 0 < max (-1000) (min 1000 sum) ∨ lower = true ∧ max (-1000) (min 1000 sum) < 0 then 0
      else max (-1000) (min 1000 sum) := by
  have clamped : valveCommand d base trim upper lower = forced upper lower (max (-1000) (min 1000 sum)) := by
    subst isSum
    cases d <;> exact congrArg (forced upper lower) (clampInt_eq_max_min (by decide))
  rw [clamped]
  unfold forced
  simp only [Bool.or_eq_true, Bool.and_eq_true, decide_eq_true_eq]

/-- A command passes freely but outward at a sampled limit (R11, R111). -/
theorem valveCommand_free {d : Side} {base trim free : Int} {upper lower : Bool}
    (isFree : free = max (-1000) (min 1000 (trimmed d base trim))) :
    (upper = false → lower = false → valveCommand d base trim upper lower = free) ∧
      (upper = true ∧ 0 < free ∨ lower = true ∧ free < 0 → valveCommand d base trim upper lower = 0) ∧
      (upper = true → lower = false → free ≤ 0 → valveCommand d base trim upper lower = free) ∧
      (lower = true → upper = false → 0 ≤ free → valveCommand d base trim upper lower = free) := by
  rw [valveCommand_eq d base trim upper lower _ rfl, ← isFree]
  refine ⟨fun up down => ?_, fun outward => if_pos outward, fun up down le => ?_, fun down up le => ?_⟩
  · simp [up, down]
  · rw [if_neg]
    simp only [up, down, true_and, Bool.false_eq_true, false_and, or_false]
    omega
  · rw [if_neg]
    simp only [up, down, true_and, Bool.false_eq_true, false_and, false_or]
    omega

theorem converterCode_eq (command null : Int) :
    (converterCode command null : Int) = max 0 (min 16383 (8192 + (command * 8191).tdiv 1000 + null)) := by
  unfold converterCode
  rw [clampInt_eq_max_min (by decide)]
  exact Int.toNat_of_nonneg (le_max_left ..)

theorem converterCode_zero {null : Int} (low : -200 ≤ null) (high : null ≤ 200) : converterCode 0 null = (8192 + null).toNat := by
  have code := converterCode_eq 0 null
  rw [Int.zero_mul, Int.zero_tdiv] at code
  omega

theorem converterCode_mono {command c : Int} (null : Int) (le : command ≤ c) : converterCode command null ≤ converterCode c null := by
  have quotients : (command * 8191).tdiv 1000 ≤ (c * 8191).tdiv 1000 :=
    Int.tdiv_le_tdiv (by decide) (by omega)
  have code := converterCode_eq command null
  have code' := converterCode_eq c null
  omega

/-! ### The evaluation at a tick -/

theorem mismatchRun_counted (tol code : Nat) (conversion : Half) (run : Nat) :
    RunCounted tol code conversion run (mismatchRun tol code conversion run) := rfl

/-- The code and the command of a side that is driven (R111, R112). -/
theorem valveDriven_eq (d : Side) (s : State) (base trim sum null : Int) (isSum : sum = trimmed d base trim) :
    ValveDriven s sum null (valveCommand d base trim s.position.upper s.position.lower)
      (converterCode (valveCommand d base trim s.position.upper s.position.lower) null) :=
  ⟨valveCommand_eq d base trim _ _ sum isSum, converterCode_eq ..⟩

theorem stallWindowNow_eq (base : Int) (opening : Nat) (w : StallWindow) :
    stallWindowNow base opening (some w) =
      if base.natAbs < 300 ∨ 5 ≤ ((opening : Int) - w.startOpening).natAbs then some { age := 0, startOpening := opening } else some w := by
  simp only [stallWindowNow, notDrivenHard, hasMoved, Bool.or_eq_true, decide_eq_true_eq]

theorem nullCode_checkReadback (d : Side) (img : Image) (readbackL readbackR : Half) (s : State) :
    nullCode d (checkReadback img readbackL readbackR s) = nullCode d s := nullCode_congr d (by simp)

/-- The Drive Unit's evaluation before the kinds it raises. -/
theorem driven_evaluated (img : Image) (readbackL readbackR : Half) (s : State) :
    DriveEvaluated img readbackL readbackR s (driven img readbackL readbackR s).drive := by
  have checked := checkReadback_drive img readbackL readbackR s
  have still (unmoved : s.grant.moveState ≠ .moving) :
      (driven img readbackL readbackR s).drive =
        { (checkReadback img readbackL readbackR s).drive with
          cmdL := 0, cmdR := 0, codeL := nullCode .left s, codeR := nullCode .right s } := by
    simp [driven, unmoved, driveHeld, nullCode_checkReadback]
  have runs :
      (driven img readbackL readbackR s).drive.runL = (checkReadback img readbackL readbackR s).drive.runL ∧
        (driven img readbackL readbackR s).drive.runR = (checkReadback img readbackL readbackR s).drive.runR := by
    unfold driven
    rw [State.withDrive_drive]
    split <;> exact ⟨rfl, rfl⟩
  refine ⟨fun enabled => ?_, fun disabled => ?_, fun unmoved => ?_, fun moves speed goal isGoal isSpeed => ?_⟩
  · rw [runs.1, runs.2, checked]
    simp only [enabled, if_true]
    exact ⟨mismatchRun_counted .., mismatchRun_counted ..⟩
  · rw [runs.1, runs.2, checked]
    simp [disabled]
  · rw [still unmoved, checked]
  · have classed : speed = speedOf img s.target.speed := isSpeed
    have position : (checkReadback img readbackL readbackR s).position = s.position := by simp
    have target : (checkReadback img readbackL readbackR s).target = s.target := by simp
    rw [driven_of_moving _ _ _ moves]
    unfold driveMoving
    rw [position, target, checked, ← isGoal, ← classed]
    refine ⟨rfl, baseCommand_eq .., valveDriven_eq .left s _ _ _ _ rfl, valveDriven_eq .right s _ _ _ _ rfl, fun w window => ?_⟩
    dsimp only
    rw [window]
    exact stallWindowNow_eq ..

theorem clearSkew_driven (img : Image) (readbackL readbackR : Half) (s : State) :
    clearSkew img (driven img readbackL readbackR s) =
      (s.withDrive (driven img readbackL readbackR s).drive).withModeCtl
        { s.modeCtl with
          active := if bothGood s = true ∧ skewBeyond img s = false then dropFault .skew s.modeCtl.active else s.modeCtl.active } := by
  have judged : (bothGood (driven img readbackL readbackR s) && !skewBeyond img (driven img readbackL readbackR s)) = true ↔
      bothGood s = true ∧ skewBeyond img s = false := by
    rw [driven_frame, Bool.and_eq_true, Bool.not_eq_true']
    exact Iff.rfl
  by_cases clears : bothGood s = true ∧ skewBeyond img s = false
  · rw [if_pos clears, clearSkew, if_pos (judged.mpr clears), driven_frame]
    rfl
  · rw [if_neg clears, clearSkew, if_neg (mt judged.mp clears)]
    exact driven_frame ..

/-- While no fault stops the station, its drive is as driven. -/
theorem evalDrive_drive {img : Image} {readbackL readbackR : Half} {s : State}
    (same : (evalDrive img readbackL readbackR s).modeCtl.mode = s.modeCtl.mode) :
    (evalDrive img readbackL readbackR s).drive = (driven img readbackL readbackR s).drive := by
  rw [evalDrive_eq, clearSkew_driven] at same ⊢
  rcases raise_moves _ ((s.withDrive (driven img readbackL readbackR s).drive).withModeCtl
      { s.modeCtl with
        active := if bothGood s = true ∧ skewBeyond img s = false then dropFault .skew s.modeCtl.active else s.modeCtl.active }) with
    ⟨raised, -⟩ | ⟨serves, faulted⟩
  · rw [raised]
    rfl
  · rw [faulted] at same
    change canFault s.modeCtl.mode = true at serves
    rw [← same] at serves
    cases serves

theorem mem_driveFaults_skew {img : Image} {stalled : Bool} {s : State} :
    FaultKind.skew ∈ driveFaults img stalled s ↔ bothGood s = true ∧ img.params.skewTrip < s.position.skew.natAbs := by
  simp [driveFaults, skewBeyond]

theorem lasts_skew : Lasts .skew := by unfold Lasts; decide

/-- SKEW is judged where both sides are good, and stays as it was else (R11, R117). -/
theorem condition_skew_evalDrive (img : Image) (readbackL readbackR : Half) (s : State) :
    condition .skew (evalDrive img readbackL readbackR s) =
      if bothGood s = true then decide (img.params.skewTrip < s.position.skew.natAbs) else condition .skew s := by
  have mem (stalled : Bool) : FaultKind.skew ∈ driveFaults img stalled (driven img readbackL readbackR s) ↔
      bothGood s = true ∧ img.params.skewTrip < s.position.skew.natAbs := by
    rw [mem_driveFaults_skew, driven_frame]
    exact Iff.rfl
  rw [evalDrive_eq, condition_raise _ _ lasts_skew.1, clearSkew_driven]
  simp only [mem]
  refine (congrArg (· || _) (hasFault_ite ..)).trans ?_
  by_cases good : bothGood s = true
  · by_cases beyond : img.params.skewTrip < s.position.skew.natAbs
    · simp [good, beyond]
    · simp [good, beyond, skewBeyond, hasFault_dropFault]
  · simp [good, condition]

/-- A skew beyond its limit that enters the latched set stops the station (R117, R151). -/
theorem evalDrive_trips {img : Image} (readbackL readbackR : Half) {s : State} (good : bothGood s = true)
    (beyond : img.params.skewTrip < s.position.skew.natAbs) (inactive : condition .skew s = false)
    (unlatched : hasFault .skew s.modeCtl.latched = false) (serves : canFault s.modeCtl.mode = true) :
    (evalDrive img readbackL readbackR s).modeCtl.mode = .fault ∧
      hasFault .skew (evalDrive img readbackL readbackR s).modeCtl.latched = true := by
  have stays : ¬ (bothGood s = true ∧ skewBeyond img s = false) := by simp [skewBeyond, beyond]
  rw [evalDrive_eq, clearSkew_driven, if_neg stays]
  generalize isFaults : driveFaults img _ (driven img readbackL readbackR s) = faults
  obtain ⟨x, isX⟩ : ∃ x, x = (s.withDrive (driven img readbackL readbackR s).drive).withModeCtl { s.modeCtl with active := s.modeCtl.active } :=
    ⟨_, rfl⟩
  have mem : FaultKind.skew ∈ faults := by
    rw [← isFaults, mem_driveFaults_skew, driven_frame]
    exact ⟨good, beyond⟩
  have modes : x.modeCtl = s.modeCtl := by rw [isX]; rfl
  have inactiveX : condition .skew x = false := by rw [condition, modes]; exact inactive
  rw [← isX]
  refine ⟨?_, latched_raise mem inactiveX⟩
  have enters : (canFault x.modeCtl.mode && (enteringLatched faults x).any isStopClass) = true := by
    rw [modes, serves, Bool.true_and, List.any_eq_true]
    refine ⟨.skew, mem_enteringLatched.mpr ⟨mem_becomingActive.mpr ⟨mem, inactiveX⟩, ?_⟩, rfl⟩
    rw [modes]
    exact unlatched
  rw [raise, if_pos enters]
  exact (enterMode_fields ..).1

/-- The Grant Unit moves the drive where it moves the gate's state alone (R98, R100). -/
theorem evalGrant_drive (img : Image) (pumpReady : Bool) (s : State) :
    (evalGrant img pumpReady s).drive = s.drive ∨ (evalGrant img pumpReady s).grant.moveState ≠ s.grant.moveState ∨
      Faulted s (evalGrant img pumpReady s) := by
  have stands : (standStill s).drive = s.drive ∨ (standStill s).grant.moveState ≠ s.grant.moveState := by
    by_cases moves : s.grant.moveState = .moving
    · refine .inr ?_
      rw [standStill_grant, moves]
      exact MoveState.noConfusion
    · rw [standStill_drive, if_neg moves]
      exact .inl rfl
  have started : (startPump s).drive = s.drive := by
    unfold startPump
    split <;> rfl
  refine evalGrant_cases (Q := fun t => t.drive = s.drive ∨ t.grant.moveState ≠ s.grant.moveState ∨ Faulted s t) pumpReady (.inl rfl)
    (stands.imp_right .inl) (fun t moves => ?_) ?_ fun _ limited => stands.imp_right .inl
  · cases moves with
    | pumps => exact .inl started
    | moves warns =>
      refine .inr (.inl ?_)
      rw [warns]
      exact MoveState.noConfusion
    | _ => exact .inl rfl
  · unfold judgePump
    split
    · rcases raise_moves [.pump] (startPump s) with ⟨raised, -⟩ | ⟨serves, faulted⟩
      · rw [raised]
        exact .inl started
      · rw [startPump_modeCtl] at serves
        exact .inr (.inr ⟨serves, faulted⟩)
    · exact .inl started

theorem evalBlock_grant_drive {img : Image} {inputs : TickInputs} {s : State}
    (same : (evalBlock img inputs .grant s).modeCtl.mode = s.modeCtl.mode) :
    (evalBlock img inputs .grant s).drive = s.drive ∨ (evalBlock img inputs .grant s).grant.moveState ≠ s.grant.moveState := by
  have moves : (evalBlock img inputs .grant s).drive = s.drive ∨
      (evalBlock img inputs .grant s).grant.moveState ≠ s.grant.moveState ∨ Faulted s (evalBlock img inputs .grant s) :=
    unlessAhead_cases (Q := fun t => t.drive = s.drive ∨ t.grant.moveState ≠ s.grant.moveState ∨ Faulted s t) _ (.inl rfl)
      (evalGrant_drive img inputs.pumpReady (setGrantAhead (s.clocks.grantAhead - Config.tickMs) s))
  rcases moves with kept | moved | ⟨serves, faulted⟩
  · exact .inl kept
  · exact .inr moved
  · rw [← same, faulted] at serves
    cases serves

/-- A mode that the rest of a tick ends with as a block found it was not left at the block's turn. -/
theorem mode_after_turn {img : Image} {inputs : TickInputs} {b : Block} {s : State}
    (same : (restOfTick img inputs b (evalBlock img inputs b s)).modeCtl.mode = s.modeCtl.mode) :
    (evalBlock img inputs b s).modeCtl.mode = s.modeCtl.mode :=
  mode_after_first img inputs (List.nodup_cons.mpr ⟨not_mem_blocksAfter inputs b, nodup_blocksAfter inputs b⟩) same

/-- A block that is neither the Grant nor the Drive Unit leaves claim and drive alone while the mode stays. -/
theorem blockMoves_claim {c : Block} {s t : State} (notGrant : c ≠ .grant) (notDrive : c ≠ .drive) (moves : BlockMoves c s t) :
    t.grant = s.grant ∧ t.drive = s.drive := by
  cases c with
  | grant => exact absurd rfl notGrant
  | drive => exact absurd rfl notDrive
  | position => rw [show t = _ from moves]; exact ⟨rfl, rfl⟩
  | mode => rw [show t = _ from moves]; exact ⟨rfl, rfl⟩
  | target => rw [show t = _ from moves]; exact ⟨rfl, rfl⟩
  | plan => rw [show t = _ from moves]; exact ⟨rfl, rfl⟩

/-- The blocks after the Drive Unit leave its drive alone where mode and move state stay. -/
theorem foldl_evalBlock_drive {img : Image} {inputs : TickInputs} {bs : List Block} {s : State} (once : bs.Nodup) (other : .drive ∉ bs)
    (same : (bs.foldl (fun t d => evalBlock img inputs d t) s).modeCtl.mode = s.modeCtl.mode)
    (stays : (bs.foldl (fun t d => evalBlock img inputs d t) s).grant.moveState = s.grant.moveState) :
    (bs.foldl (fun t d => evalBlock img inputs d t) s).drive = s.drive := by
  induction bs generalizing s with
  | nil => rfl
  | cons c cs ih =>
    have first := mode_after_first img inputs once same
    have rest := same.trans first.symm
    obtain ⟨notFirst, onceRest⟩ := List.nodup_cons.mp once
    have otherRest : .drive ∉ cs := fun mem => other (List.mem_cons_of_mem c mem)
    have notDrive : c ≠ .drive := fun eq => other (eq ▸ List.mem_cons_self ..)
    by_cases grants : c = .grant
    · subst grants
      have kept : (cs.foldl (fun t d => evalBlock img inputs d t) (evalBlock img inputs .grant s)).grant =
          (evalBlock img inputs .grant s).grant :=
        foldl_evalBlock_moves img inputs (R := fun t u => u.grant = t.grant) onceRest rest (fun _ => rfl)
          (fun _ _ _ h g => g.trans h) fun d mem t u moves => by
            cases d with
            | grant => exact absurd mem notFirst
            | drive => exact absurd mem otherRest
            | position => exact (blockMoves_claim (by decide) (by decide) moves).1
            | mode => exact (blockMoves_claim (by decide) (by decide) moves).1
            | target => exact (blockMoves_claim (by decide) (by decide) moves).1
            | plan => exact (blockMoves_claim (by decide) (by decide) moves).1
      rw [List.foldl_cons] at stays ⊢
      have unmoved : (evalBlock img inputs .grant s).grant.moveState = s.grant.moveState := by rw [← kept]; exact stays
      have drive := (evalBlock_grant_drive first).resolve_right (not_not_intro unmoved)
      exact (ih onceRest otherRest rest (by rw [kept])).trans drive
    · obtain ⟨grant, drive⟩ := blockMoves_claim grants notDrive (evalBlock_moves img inputs first)
      exact (ih onceRest otherRest rest (by rw [grant]; exact stays)).trans drive

/-- Settles O54: the formulas by cases, the tick by the Drive Unit's turn and what the blocks after it leave alone. -/
theorem driveKeepsItsLimits : Obligations.DriveKeepsItsLimits := by
  refine ⟨ramp_eq, fun side base trim upper lower => ?_, baseCommand_eq, fun command null => ?_, fun inputs s b img serving behind isB => ?_⟩
  · obtain ⟨low, high⟩ := valveCommand_range side base trim upper lower
    have command := valveCommand_eq side base trim upper lower _ rfl
    refine ⟨low, high, fun up => ?_, fun down => ?_, fun free isFree => valveCommand_free isFree⟩
    all_goals rw [command]
    · simp only [up, true_and]
      split <;> omega
    · simp only [down, true_and]
      split <;> omega
  · exact ⟨converterCode_le command null, rfl, converterCode_zero, converterCode_eq command null, fun c => converterCode_mono null⟩
  · obtain ⟨accepted, -⟩ := serving
    obtain ⟨t, run, frame, -⟩ := exec_of_effect (effect_controlTick (inputs := inputs) accepted .drive)
    have ahead : b.clocks.driveAhead < 60 := by rw [isB, (atTurn_ahead img inputs .drive s).2.1 rfl]; exact behind
    obtain ⟨m, isM⟩ : ∃ m, m = afterTurn img inputs .drive s := ⟨_, rfl⟩
    obtain ⟨c, isC⟩ : ∃ c, c = setDriveAhead (b.clocks.driveAhead - Config.tickMs) b := ⟨_, rfl⟩
    have turned : m = evalDrive img inputs.readbackL inputs.readbackR c := by
      rw [isM, isC, afterTurn, ← isB]
      exact unlessAhead_of_behind _ ahead
    have other := not_mem_blocksAfter inputs .drive
    have once := nodup_blocksAfter inputs .drive
    rw [← isM] at frame
    have stays : KindStays .skew m (restOfTick img inputs .drive m) :=
      foldl_evalBlock_keeps (P := KindStays .skew m) (.refl _ m) fun d mem u h =>
        h.trans (kindStays_evalBlock lasts_skew img inputs u fun eq => other (eq ▸ mem))
    have conditionT : condition .skew t = condition .skew m := by
      rw [frame]
      exact stays.1
    have skew : condition .skew m = if bothGood b = true then decide (img.params.skewTrip < b.position.skew.natAbs) else condition .skew b := by
      rw [turned, condition_skew_evalDrive, isC]
      rfl
    have afterB : m = evalBlock img inputs .drive b := by rw [isM, isB]; rfl
    refine ⟨t, run, fun mode moveState => ?_, fun good => ?_, fun bad => ?_, fun good beyond inactive unlatched serves => ?_⟩
    · rw [frame] at mode moveState
      rw [afterB] at mode
      have turnMode := mode_after_turn mode
      have moves : BlockMoves .drive b m := by rw [afterB]; exact evalBlock_moves img inputs turnMode
      rw [← afterB] at mode turnMode
      have grantM : m.grant = b.grant := by rw [show m = _ from moves]
      have driveT : t.drive = m.drive := by
        rw [frame]
        exact foldl_evalBlock_drive once other (mode.trans turnMode.symm) (by rw [grantM]; exact moveState)
      rw [driveT, turned, evalDrive_drive (by rw [← turned, turnMode, isC]; rfl), isC]
      exact driven_evaluated img inputs.readbackL inputs.readbackR (setDriveAhead (b.clocks.driveAhead - Config.tickMs) b)
    · rw [conditionT, skew, if_pos good, decide_eq_true_iff]
    · rw [conditionT, skew, if_neg (by simp [bad])]
    · obtain ⟨fault, latched⟩ := evalDrive_trips (img := img) (s := c) inputs.readbackL inputs.readbackR (by rw [isC]; exact good)
        (by rw [isC]; exact beyond) (by rw [isC]; exact inactive) (by rw [isC]; exact unlatched) (by rw [isC]; exact serves)
      rw [← turned] at fault latched
      rw [frame]
      exact ⟨foldl_evalBlock_fault img inputs _ fault, stays.2 latched⟩

end Sys2Proof.Proofs
end

section
/-! SUPPORT. The Target Unit's lookups and its evaluation at a control tick (O46). -/

namespace Sys2Proof.Proofs

open Sys2Proof.Machine Sys2Proof.Safety

/-! ### The lookups -/

theorem mem_neighbourOpenings {img : Image} {s : State} {mm : Nat} :
    mm ∈ neighbourOpenings img s ↔
      ∃ (n : Nat) (r : PeerRow),
        ((layoutAt img.layout s.loader.strap).left = some n ∨ (layoutAt img.layout s.loader.strap).right = some n) ∧
          contentAt n s = some r ∧ r.freshness ≠ .lost ∧ r.isolated = false ∧ r.opening = mm := by
  have named (n : Nat) :
      n ∈ [(layoutAt img.layout s.loader.strap).left, (layoutAt img.layout s.loader.strap).right].filterMap id ↔
        (layoutAt img.layout s.loader.strap).left = some n ∨ (layoutAt img.layout s.loader.strap).right = some n := by
    simp only [List.mem_filterMap, List.mem_cons, List.not_mem_nil, or_false, id_eq, exists_eq_or_imp, exists_eq_left]
  have bounds (n : Nat) :
      (match contentAt n s with
        | some r => if notLost r && !r.isolated then some r.opening else none
        | none => none) = some mm ↔
        ∃ r, contentAt n s = some r ∧ r.freshness ≠ .lost ∧ r.isolated = false ∧ r.opening = mm := by
    cases contentAt n s with
    | none => simp
    | some r => simp [notLost, and_assoc]
  unfold neighbourOpenings
  rw [List.mem_filterMap]
  constructor
  · rintro ⟨n, isNamed, opening⟩
    obtain ⟨r, row⟩ := (bounds n).mp opening
    exact ⟨n, r, (named n).mp isNamed, row⟩
  · rintro ⟨n, r, isNamed, row⟩
    exact ⟨n, (named n).mpr isNamed, (bounds n).mpr ⟨r, row⟩⟩

/-- The station numbers of the rows that a lookup selects (R38). -/
theorem peerRows_filter_map (s : State) (p : Nat × PeerRow → Bool) (q : Nat → PeerRow → Bool) (same : ∀ n r, p (n, r) = q n r) :
    ((peerRows s).filter p).map (·.1) = rowsWhere s q := by
  unfold peerRows rowsWhere
  generalize List.range 16 = ns
  induction ns with
  | nil => rfl
  | cons n ns ih =>
    cases row : contentAt n s with
    | none => simpa [List.filterMap_cons, row] using ih
    | some r =>
      cases shows : q n r with
      | true => simpa [List.filterMap_cons, row, same, shows] using ih
      | false => simpa [List.filterMap_cons, row, same, shows] using ih

theorem sharers_eq (o : Order) (s : State) :
    sharers o s =
      rowsWhere s (fun _ r => decide (r.freshness = .fresh ∧ r.available = true ∧ r.keyNumber = o.number ∧ r.keyOrigin = o.origin)) := by
  refine peerRows_filter_map s _ _ fun n r => ?_
  simp only [Bool.decide_and, beq_eq_decide, Bool.decide_eq_true, Bool.and_assoc]

theorem targetLookups (img : Image) (s : State) : TargetLookups img s := ⟨fun _ => mem_neighbourOpenings, fun o => sharers_eq o s⟩

/-! ### The evaluation -/

section
variable (img : Image) (raise lower : Bool) (b : State)

/-- The station with its step start opening read, from which the Target Unit evaluates (R80). -/
def startJudged (b : State) : State := b.withTarget { b.target with stepStart := stepStartNow b }

/-- The demand that the Target Unit resolves (R72). -/
def resolved : Resolved := resolveDemand img raise lower (shareNow b) (startJudged b)

/-- The target that an evaluation leaves. -/
def evaluatedTarget : Target := (evalTarget img raise lower b).target

theorem evaluatedTarget_source : (evaluatedTarget img raise lower b).source = (resolved img raise lower b).source := rfl

theorem evaluatedTarget_speed : (evaluatedTarget img raise lower b).speed = (resolved img raise lower b).speed := rfl

theorem evaluatedTarget_share : (evaluatedTarget img raise lower b).share = shareNow b := rfl

variable {img raise lower b}

theorem targetIs_of_opening {mm : Nat} {x : Int} (same : (mm : Int) = x) (demand : (resolved img raise lower b).demand = .opening mm) :
    TargetIs x (evaluatedTarget img raise lower b) := by
  have unclamped : ((evaluatedTarget img raise lower b).unclamped, (evaluatedTarget img raise lower b).reason,
      (evaluatedTarget img raise lower b).holdOpening) = unclampedOf (resolved img raise lower b).demand (startJudged b) := rfl
  rw [demand, unclampedOf] at unclamped
  simp only [Prod.mk.injEq] at unclamped
  exact ⟨(congrArg _ unclamped.1).trans same, unclamped.2.1⟩

theorem targetHolds_of_hold {r : HoldReason} (demand : (resolved img raise lower b).demand = .hold r) :
    TargetHolds r b (evaluatedTarget img raise lower b) := by
  have unclamped : ((evaluatedTarget img raise lower b).unclamped, (evaluatedTarget img raise lower b).reason,
      (evaluatedTarget img raise lower b).holdOpening) = unclampedOf (resolved img raise lower b).demand (startJudged b) := rfl
  rw [demand, unclampedOf] at unclamped
  simp only [Prod.mk.injEq] at unclamped
  obtain ⟨opening, reason, holds⟩ := unclamped
  have captures : (evaluatedTarget img raise lower b).holdOpening =
      if b.target.reason = some r ∧ b.target.holdOpening.isSome then b.target.holdOpening
      else if b.position.established then some b.position.opening else none := holds
  refine ⟨reason, by rw [opening, holds]; rfl, fun same kept => captures.trans (if_pos ⟨same, kept⟩), fun fresh => captures.trans (if_neg ?_)⟩
  rintro ⟨same, kept⟩
  rcases fresh with other | absent
  · exact other same
  · rw [absent] at kept
    cases kept

/-- An order value is what its cases say it is (R75, R78, R79). -/
theorem orderValue_of {o : Order} {share : Nat} {v : OrderValue} (h : OrderValueIs img o share b v) : orderValue img o share b = v := by
  obtain ⟨close, locked, opens, shut, blind, flows⟩ := h
  unfold orderValue
  cases kind : o.kind with
  | close => exact (close kind).symm
  | opening =>
    by_cases lock : o.tideLock = true ∧ b.tide.window ≠ .opened
    · simp [lock.1, lock.2, locked kind lock.1 lock.2]
    · have free : o.tideLock = false ∨ b.tide.window = .opened := by
        cases tide : o.tideLock with
        | false => exact .inl rfl
        | true => exact .inr (by_contra fun other => lock ⟨tide, other⟩)
      have unlocked : (o.tideLock && b.tide.window != .opened) = false := by
        rcases free with tide | window
        · rw [tide, Bool.false_and]
        · rw [window]; simp
      simp only [unlocked, clampNat_zero, opens kind free, Bool.false_eq_true, if_false]
  | discharge =>
    by_cases window : b.tide.window = .opened
    · cases head : b.level.head with
      | none => simp only [window, blind kind window head, if_true]
      | some x =>
        have value := flows x _ kind window head rfl
        simp only [window, if_true]
        exact value.symm
    · simp only [window, if_false, shut kind window]

/-- An order value taken as the target (R78). -/
theorem targetTakes_of_value {value : Option Nat} {f : Int → Int} {g : Nat → Nat} (same : ∀ a : Nat, (g a : Int) = f a)
    (demand : (resolved img raise lower b).demand = match value with | some a => .opening (g a) | none => .hold .head) :
    TargetTakes (Option.map f (do let a ← value; pure (a : Int))) b (evaluatedTarget img raise lower b) := by
  cases value with
  | none => exact ⟨fun a some => (by cases some), fun _ => targetHolds_of_hold demand⟩
  | some a =>
    refine ⟨fun x some => ?_, fun none => (by cases none)⟩
    obtain rfl := Option.some.inj some
    exact targetIs_of_opening (same a) demand

theorem stepStartOpening_startJudged : stepStartOpening (startJudged b) = startRead b := by
  change (match stepStartNow b with | .recorded a => a | _ => b.position.opening) = _
  unfold stepStartNow startRead
  cases start : b.target.stepStart with
  | recorded a => simp
  | absent => simp
  | pending => cases b.position.established <;> simp

theorem resolved_of_auto (mode : b.modeCtl.mode = .auto) {o : Order} {v : OrderValue} (adopted : b.order.adopted = some o)
    (applies : orderApplies b = true) (value : orderValue img o (shareNow b) b = v) :
    resolved img raise lower b =
      if o.plan = none then { source := .track, speed := .standard, demand := demandOfValue v }
      else
        match b.plan.state, b.plan.current with
        | .running, some i =>
          { source := .step, speed := .step (stepAt img i).speed, demand := stepDemand img (stepAt img i) v (startJudged b) }
        | _, _ => { source := .hold, speed := .standard, demand := .hold .plan } := by
  have applies' : orderApplies (startJudged b) = true := applies
  have value' : orderValue img o (shareNow b) (startJudged b) = v := value
  have mode' : (startJudged b).modeCtl.mode = .auto := mode
  have adopted' : (startJudged b).order.adopted = some o := adopted
  unfold resolved resolveDemand
  simp only [mode', adopted', applies', value', Bool.not_true, Bool.false_eq_true, if_false] <;> rfl

/-- What a step asks for, by its kind (R81). -/
theorem targets_of_step {r : StepRecord} {v : OrderValue} (demand : (resolved img raise lower b).demand = stepDemand img r v (startJudged b)) :
    (r.kind = .order → TargetTakes (v.value.map (fun a => inTravel img a)) b (evaluatedTarget img raise lower b)) ∧
      (r.kind = .orderPct →
        TargetTakes (v.value.map (fun a => inTravel img ((a * r.value).fdiv 100))) b (evaluatedTarget img raise lower b)) ∧
      (r.kind = .abs → TargetIs (inTravel img r.value) (evaluatedTarget img raise lower b)) ∧
      (r.kind = .rel → TargetIs (inTravel img ((startRead b : Int) + r.value)) (evaluatedTarget img raise lower b)) ∧
      (r.kind = .closed → TargetIs 0 (evaluatedTarget img raise lower b)) ∧
      (r.kind = .hold → TargetIs (inTravel img (startRead b)) (evaluatedTarget img raise lower b)) ∧
      (r.kind = .empty → TargetHolds .plan b (evaluatedTarget img raise lower b)) := by
  unfold stepDemand at demand
  refine ⟨fun kind => ?_, fun kind => ?_, fun kind => ?_, fun kind => ?_, fun kind => ?_, fun kind => ?_, fun kind => ?_⟩
  all_goals rw [kind] at demand
  · exact targetTakes_of_value (fun a => intoTravel_eq img a) demand
  · exact targetTakes_of_value (fun a => intoTravel_eq img _) demand
  · exact targetIs_of_opening (intoTravel_eq img _) demand
  · rw [← stepStartOpening_startJudged]
    exact targetIs_of_opening (intoTravel_eq img _) demand
  · exact targetIs_of_opening rfl demand
  · rw [← stepStartOpening_startJudged]
    exact targetIs_of_opening (intoTravel_eq img _) demand
  · exact targetHolds_of_hold demand

/-- The demand resolved in AUTO under an order that applies (R75). -/
theorem resolved_by_order (mode : b.modeCtl.mode = .auto) {o : Order} {v : OrderValue} (adopted : b.order.adopted = some o)
    (applies : orderApplies b = true) (isValue : OrderValueIs img o (evaluatedTarget img raise lower b).share b v) :
    (evaluatedTarget img raise lower b).shareUnmet = v.unmet ∧
      (o.plan = none → (resolved img raise lower b) = { source := .track, speed := .standard, demand := demandOfValue v }) ∧
      (o.plan ≠ none → b.plan.state ≠ .running ∨ b.plan.current = none →
        resolved img raise lower b = { source := .hold, speed := .standard, demand := .hold .plan }) ∧
      (∀ i, o.plan ≠ none → b.plan.state = .running → b.plan.current = some i →
        resolved img raise lower b =
          { source := .step, speed := .step (stepAt img i).speed, demand := stepDemand img (stepAt img i) v (startJudged b) }) := by
  have value : orderValue img o (shareNow b) b = v := orderValue_of isValue
  have demand := resolved_of_auto (raise := raise) (lower := lower) mode adopted applies value
  refine ⟨?_, fun free => ?_, fun named idle => ?_, fun i named running current => ?_⟩
  · have unmet : (evaluatedTarget img raise lower b).shareUnmet = shareUnmetNow img (shareNow b) b := rfl
    rw [unmet, shareUnmetNow]
    simp [mode, adopted, applies, value]
  · rw [demand, if_pos free]
  · rw [demand, if_neg named]
    rcases idle with other | absent
    · cases state : b.plan.state with
      | running => exact absurd state other
      | _ => rfl
    · rw [absent]
      cases b.plan.state <;> rfl
  · rw [demand, if_neg named, running, current]

theorem resolved_without_order (mode : b.modeCtl.mode = .auto) (free : b.order.adopted = none ∨ orderApplies b = false) :
    resolved img raise lower b = { source := .hold, speed := .standard, demand := .hold .order } := by
  have mode' : (startJudged b).modeCtl.mode = .auto := mode
  have same : (startJudged b).order.adopted = b.order.adopted ∧ orderApplies (startJudged b) = orderApplies b := ⟨rfl, rfl⟩
  unfold resolved resolveDemand
  rw [mode']
  dsimp only
  rw [same.1, same.2]
  rcases free with absent | other
  · rw [absent]
  · cases b.order.adopted with
    | none => rfl
    | some o => simp [other]

theorem shareUnmet_of_none (free : b.modeCtl.mode ≠ .auto ∨ b.order.adopted = none ∨ orderApplies b = false) :
    (evaluatedTarget img raise lower b).shareUnmet = false := by
  have unmet : (evaluatedTarget img raise lower b).shareUnmet = shareUnmetNow img (shareNow b) b := rfl
  rw [unmet, shareUnmetNow]
  cases adopted : b.order.adopted with
  | none => rfl
  | some o =>
    rcases free with other | absent | unapplied
    · simp [other]
    · rw [adopted] at absent; cases absent
    · simp [unapplied]

theorem demandResolved : DemandResolved img raise lower b (evaluatedTarget img raise lower b) := by
  have source := evaluatedTarget_source img raise lower b
  have speed := evaluatedTarget_speed img raise lower b
  have decides {m : Mode} (mode : b.modeCtl.mode = m) : (startJudged b).modeCtl.mode = m := mode
  refine ⟨fun mode => ?_, fun mode => ?_, fun keyed => ?_, fun mode => ⟨fun free => ?_, fun o v adopted applies isValue => ?_⟩, shareUnmet_of_none⟩
  · have demand : resolved img raise lower b = { source := .storm, speed := .storm, demand := .opening 0 } := by
      rw [resolved, resolveDemand, decides mode]
    rw [source, speed, demand]
    exact ⟨rfl, rfl, targetIs_of_opening (mm := 0) rfl (by rw [demand])⟩
  · have demand : resolved img raise lower b = { source := .hold, speed := .standard, demand := .hold .mode } := by
      rw [resolved, resolveDemand, decides mode]
    rw [source, speed, demand]
    exact ⟨rfl, rfl, targetHolds_of_hold (by rw [demand])⟩
  · have demand : resolved img raise lower b =
        { source := .buttons, speed := if b.modeCtl.mode = .loc then .loc else .maint, demand := buttonDemand img raise lower } := by
      rcases keyed with mode | mode <;> rw [resolved, resolveDemand, decides mode, mode] <;> rfl
    have buttons : (resolved img raise lower b).demand = buttonDemand img raise lower := by rw [demand]
    refine ⟨by rw [source, demand], by rw [speed, demand], fun up down => ?_, fun up down => ?_, fun both => ?_⟩
    · exact targetIs_of_opening rfl (buttons.trans (by rw [up, down]; rfl))
    · exact targetIs_of_opening (mm := 0) rfl (buttons.trans (by rw [up, down]; rfl))
    · exact targetHolds_of_hold (buttons.trans (by rw [both]; cases lower <;> rfl))
  · have demand := resolved_without_order (img := img) (raise := raise) (lower := lower) mode free
    rw [source, speed, demand]
    exact ⟨rfl, rfl, targetHolds_of_hold (by rw [demand])⟩
  · obtain ⟨unmet, tracks, idles, steps⟩ := resolved_by_order mode adopted applies isValue
    refine ⟨unmet, fun free => ?_, fun named idle => ?_, fun i r named running current isStep => ?_⟩
    · have demand := tracks free
      rw [source, speed, demand]
      refine ⟨rfl, rfl, targetTakes_of_value (f := fun a => a) (fun _ => rfl) ?_⟩
      rw [demand]
      rfl
    · have demand := idles named idle
      rw [source, speed, demand]
      exact ⟨rfl, rfl, targetHolds_of_hold (by rw [demand])⟩
    · have demand := steps i named running current
      rw [← isStep] at demand
      rw [source, speed, demand]
      exact ⟨rfl, rfl, targets_of_step (by rw [demand])⟩

end

/-- The Target Unit's evaluation (R71 to R84). -/
theorem targetEvaluated (img : Image) (raise lower : Bool) (b : State) :
    TargetEvaluated img raise lower b (evaluatedTarget img raise lower b) := by
  have available : (evaluatedTarget img raise lower b).available = availableNow b := rfl
  have share : (evaluatedTarget img raise lower b).share = shareNow b := rfl
  refine ⟨demandResolved, ?_, fun o n rank adopted isN isRank => ?_, fun absent => ?_, rfl, rfl, rfl⟩
  · rw [available, availableNow]
    simp only [Bool.and_eq_true, Bool.not_eq_true', beq_iff_eq, and_assoc]
    refine ⟨fun ⟨mode, _, rest⟩ => ⟨mode, rest⟩, fun ⟨mode, applies, rest⟩ => ⟨mode, ?_, applies, rest⟩⟩
    cases adopted : b.order.adopted with
    | none => simp [orderApplies, adopted] at applies
    | some o => rfl
  · rw [share, available, shareNow, adopted]
    simp only [Bool.and_eq_true, beq_iff_eq]
    rw [computeShare, shareOf, ← isN, ← isRank]
  · rw [share, shareNow, absent]

/-- The evaluation reads of LIMITED and of the step start opening nothing. -/
theorem targetEvaluated_congr {img : Image} {raise lower : Bool} {b : State} {x : Target} (limited : Bool) (start : StepStart)
    (h : TargetEvaluated img raise lower b x) : TargetEvaluated img raise lower b { x with limited := limited, stepStart := start } := h

/-! ### What the other blocks do to the target -/

/-- The events of other units set LIMITED and the step start opening (R80, R91, R100). -/
abbrev TargetStays (s t : State) : Prop :=
  t.target = { s.target with limited := t.target.limited, stepStart := t.target.stepStart }

theorem targetStays_trans {s t u : State} (h : TargetStays s t) (g : TargetStays t u) : TargetStays s u := by
  unfold TargetStays at g
  rw [h] at g
  exact g

theorem planMoves_targetStays {s t : State} (h : PlanMoves s t) : TargetStays s t := by
  unfold PlanMoves at h
  unfold TargetStays
  rw [h]

theorem takeStep_refill_moves (s : State) : PlanMoves s (takeStep (refill s)) := planMoves_trans (refill_moves s) (takeStep_moves _)

theorem startPlan_moves (n : Nat) (s : State) : PlanMoves s (startPlan n s) := by
  unfold startPlan
  split
  · rfl
  · dsimp only
    split
    · refine planMoves_trans ?_ (failPlan_moves _)
      rfl
    · refine planMoves_trans ?_ (takeStep_refill_moves _)
      rfl

theorem takePlanAction_moves (s : State) : PlanMoves s (takePlanAction s) := by
  unfold takePlanAction
  split
  · unfold abandonPlan
    split <;> rfl
  · exact startPlan_moves _ s
  · rfl

theorem holdPlan_moves (s : State) : PlanMoves s (holdPlan s) := by
  rw [holdPlan_held]
  rfl

theorem adjustRestored_moves (m : Mode) (s : State) : PlanMoves s (adjustRestored m s) := by
  unfold adjustRestored
  split
  · split
    · exact planMoves_trans (t := s.withPlan _) rfl (takeStep_refill_moves _)
    · exact holdPlan_moves s
  · rfl
  · rfl

theorem restoreInto_moves (new : Mode) (s : State) : PlanMoves s (restoreInto new s) := by
  unfold restoreInto
  split
  · cases held : s.modeCtl.save with
    | none => simp only [restoreSave, held]
    | some c =>
      rw [restoreSave_of_save new held]
      exact planMoves_trans (t := saveRestored c s) rfl (adjustRestored_moves new _)
  · rfl

theorem enterAuto_targetStays (s : State) : TargetStays s (enterAuto s) := by
  have halted : (if haltInForce s then haltStop s else s).target = s.target := by
    split
    · exact haltStop_target s
    · rfl
  unfold enterAuto
  generalize (if haltInForce s then haltStop s else s) = t at halted
  dsimp only
  split
  · have action := planMoves_targetStays (takePlanAction_moves (t.withOrder { t.order with deferred := false }))
    refine targetStays_trans (t := t) ?_ action
    unfold TargetStays
    rw [halted]
  · unfold TargetStays
    rw [halted]

theorem claimAtTransition_targetStays (new : Mode) (s : State) : TargetStays s (claimAtTransition new s) := by
  have still : TargetStays s (standStill s) := by
    unfold TargetStays
    rw [standStill_target]
  have halted : TargetStays s (standStill (setpointToOpening s)) := by
    unfold TargetStays
    rw [standStill_target]
    rfl
  unfold claimAtTransition
  split
  · rfl
  · exact still
  · dsimp only
    split
    · rfl
    · exact still
    · split <;> rfl
    · rfl
  · dsimp only
    split
    · rfl
    · exact still
    · split <;> rfl
    · rfl
  · split
    · split
      · exact still
      · exact halted
      · rfl
    · rfl
  · split
    · split
      · exact still
      · exact halted
      · rfl
    · rfl

theorem enterMode_targetStays (new : Mode) (s : State) : TargetStays s (enterMode new s) := by
  have saved : TargetStays s (setMode new (takeStormSave new s)) := by
    unfold TargetStays setMode
    rw [State.withModeCtl_target, takeStormSave_target]
  have claimed := targetStays_trans saved (claimAtTransition_targetStays new _)
  have held :
      TargetStays s
        (if s.modeCtl.mode = .auto then holdPlan (claimAtTransition new (setMode new (takeStormSave new s)))
         else claimAtTransition new (setMode new (takeStormSave new s))) := by
    split
    · exact targetStays_trans claimed (planMoves_targetStays (holdPlan_moves _))
    · exact claimed
  have restored := targetStays_trans held (planMoves_targetStays (restoreInto_moves new _))
  unfold enterMode
  dsimp only
  split
  · exact targetStays_trans restored (enterAuto_targetStays _)
  · exact restored

theorem raise_target (ks : List FaultKind) (s : State) : (raise ks s).target = s.target := by rw [raise_frame]

theorem judgePump_target (img : Image) (s : State) : (judgePump img s).target = s.target := by
  unfold judgePump
  split
  · exact raise_target _ s
  · rfl

theorem evalGrant_targetStays (img : Image) (pumpReady : Bool) (s : State) : TargetStays s (evalGrant img pumpReady s) := by
  have started : (startPump s).target = s.target := by
    unfold startPump
    split <;> rfl
  have of_target {t : State} (same : t.target = s.target) : TargetStays s t := by
    unfold TargetStays
    rw [same]
  refine evalGrant_cases pumpReady rfl (of_target (standStill_target s)) (fun t moves => ?_)
    (of_target ((judgePump_target img _).trans started)) fun _ limited => ?_
  · cases moves with
    | pumps => exact of_target started
    | _ => rfl
  · unfold TargetStays setLimited
    rw [State.withTarget_target, standStill_target]

theorem evalDrive_target (img : Image) (readbackL readbackR : Half) (s : State) : (evalDrive img readbackL readbackR s).target = s.target := by
  rw [evalDrive_eq, raise_target, clearSkew_driven]
  rfl

/-- A block but the Target Unit leaves the target but LIMITED and the step start opening. -/
theorem evalBlock_targetStays (img : Image) (inputs : TickInputs) {c : Block} (s : State) (other : c ≠ .target) :
    TargetStays s (evalBlock img inputs c s) := by
  cases c with
  | target => exact absurd rfl other
  | position => rfl
  | mode =>
    change TargetStays s (sampleKeys ..)
    rw [sampleKeys_eq]
    split
    · rfl
    · exact targetStays_trans (t := keysSampled _ _ _ s) rfl (enterMode_targetStays _ _)
  | grant => exact unlessAhead_cases _ rfl (evalGrant_targetStays img inputs.pumpReady (setGrantAhead _ s))
  | drive =>
    refine unlessAhead_cases _ rfl ?_
    unfold TargetStays
    rw [evalDrive_target]
    rfl
  | plan =>
    have moves := planMoves_targetStays (evalPlan_moves img (setPlanAhead (s.clocks.planAhead - Config.tickMs) s))
    exact unlessAhead_cases _ rfl moves

/-! ### A station in STORM -/

/-- A tick leaves STORM for FAULT alone (R149, R151). -/
theorem evalBlock_storm {img : Image} {inputs : TickInputs} (c : Block) {s : State} (storm : s.modeCtl.mode = .storm ∨ s.modeCtl.mode = .fault) :
    (evalBlock img inputs c s).modeCtl.mode = .storm ∨ (evalBlock img inputs c s).modeCtl.mode = .fault := by
  rcases storm with mode | mode
  · by_cases keys : c = .mode
    · subst keys
      change (sampleKeys ..).modeCtl.mode = _ ∨ (sampleKeys ..).modeCtl.mode = _
      rw [sampleKeys_eq, if_pos (by simp only [modeSampled, mode])]
      exact .inl mode
    · rcases evalBlock_mode img inputs (s := s) keys with ⟨same, -⟩ | ⟨-, faulted⟩
      · exact .inl (same.trans mode)
      · exact .inr faulted
  · exact .inr (evalBlock_fault img inputs c mode)

/-- A fault at the end of the reads is all that changes the mode before the blocks evaluate (R2, R151). -/
theorem tickBegins_mode (img : Image) (inputs : TickInputs) (s : State) :
    (tickBegins img inputs s).modeCtl.mode = s.modeCtl.mode ∨ (tickBegins img inputs s).modeCtl.mode = .fault := by
  have ends (d : Side) (t : State) : (failOpenRead img d t).modeCtl.mode = t.modeCtl.mode ∨ (failOpenRead img d t).modeCtl.mode = .fault := by
    unfold failOpenRead endRead
    dsimp only
    split
    · split
      · rw [evaluatePosition_eq]
        rcases raise_moves (positionFaults img _) _ with ⟨-, sets⟩ | ⟨-, faulted⟩
        · exact .inl (by rw [sets]; rfl)
        · exact .inr faulted
      · exact .inl rfl
    · exact .inl rfl
  have sticks (d : Side) (t : State) (fault : t.modeCtl.mode = .fault) : (failOpenRead img d t).modeCtl.mode = .fault :=
    (ends d t).elim (·.trans fault) id
  have begun : (nextTick (hearLine inputs.line (runOn s.clocks.tick Config.tickMs s))).modeCtl.mode = s.modeCtl.mode := by
    rw [nextTick, State.withClocks_modeCtl, hearLine_modeCtl, runOn, elapse_modeCtl]
  unfold tickBegins endOpenReads
  rcases ends .left (nextTick (hearLine inputs.line (runOn s.clocks.tick Config.tickMs s))) with left | left
  · exact (ends .right _).imp_left fun right => right.trans (left.trans begun)
  · exact .inr (sticks .right _ left)

/-- Settles O46: the lookups, the Target Unit's turn and what the other blocks leave of its target; in STORM the mode lasts or is FAULT. -/
theorem stormTargetsTheSill : Obligations.StormTargetsTheSill := by
  refine ⟨fun s img => targetLookups img s, fun inputs s img ⟨accepted, _⟩ => ?_⟩
  obtain ⟨t, run, frame, -⟩ := exec_of_effect (effect_controlTick (inputs := inputs) accepted .target)
  obtain ⟨b, isB⟩ : ∃ b, b = atTurn img inputs .target s := ⟨_, rfl⟩
  have turned : afterTurn img inputs .target s = evalTarget img inputs.raise inputs.lower b := by rw [isB]; rfl
  rw [turned] at frame
  have stays : TargetStays (evalTarget img inputs.raise inputs.lower b)
      (restOfTick img inputs .target (evalTarget img inputs.raise inputs.lower b)) :=
    foldl_evalBlock_keeps (P := TargetStays (evalTarget img inputs.raise inputs.lower b)) rfl fun c mem u h =>
      targetStays_trans h (evalBlock_targetStays img inputs u fun eq => not_mem_blocksAfter inputs .target (eq ▸ mem))
  have evaluated : TargetEvaluated img inputs.raise inputs.lower b t.target := by
    have targetT : t.target = (restOfTick img inputs .target (evalTarget img inputs.raise inputs.lower b)).target := by rw [frame]
    rw [targetT, show State.target (restOfTick ..) = _ from stays]
    exact targetEvaluated_congr _ _ (targetEvaluated img inputs.raise inputs.lower b)
  have restStorm : b.modeCtl.mode = .storm ∨ b.modeCtl.mode = .fault → t.modeCtl.mode = .storm ∨ t.modeCtl.mode = .fault := fun before => by
    rw [frame]
    exact foldl_evalBlock_keeps (P := fun u => u.modeCtl.mode = .storm ∨ u.modeCtl.mode = .fault) before fun c _ _ => evalBlock_storm c
  have stormsAtTurn (storm : s.modeCtl.mode = .storm) : b.modeCtl.mode = .storm ∨ b.modeCtl.mode = .fault := by
    rw [isB]
    exact foldl_evalBlock_keeps (P := fun u => u.modeCtl.mode = .storm ∨ u.modeCtl.mode = .fault)
      ((tickBegins_mode img inputs s).imp_left (·.trans storm)) fun c _ _ => evalBlock_storm c
  refine ⟨⟨t, run, isB ▸ evaluated⟩, fun storm => ⟨t, run, restStorm (stormsAtTurn storm), fun storms => ?_⟩⟩
  have mode : b.modeCtl.mode = .storm := (stormsAtTurn storm).resolve_right fun fault => by
    have faultT : t.modeCtl.mode = .fault := by
      rw [frame]
      exact foldl_evalBlock_fault img inputs _ fault
    rw [storms] at faultT
    cases faultT
  obtain ⟨⟨inStorm, -⟩, -, -, -, effective, -, -⟩ := evaluated
  obtain ⟨source, speed, unclamped, -⟩ := inStorm mode
  have closed : t.target.unclamped = 0 := by exact_mod_cast unclamped
  rw [if_neg (by rw [mode]; decide)] at effective
  exact ⟨effective.trans closed, closed, source, speed⟩

end Sys2Proof.Proofs
end

section
/-! SUPPORT. The Grant Unit's lookups, its timers' rows and its evaluation at a control tick (O47). -/

namespace Sys2Proof.Proofs

open Sys2Proof.Machine Sys2Proof.Safety

/-! ### The lookups -/

theorem mem_peerRows {s : State} {n : Nat} {r : PeerRow} : (n, r) ∈ peerRows s ↔ n < 16 ∧ contentAt n s = some r := by
  simp [peerRows, List.mem_filterMap, List.mem_range]

theorem length_filter_add {α : Type} (xs : List α) (p q : α → Bool) (apart : ∀ x, p x = true → q x = false) :
    (xs.filter p).length + (xs.filter q).length = (xs.filter (fun x => p x || q x)).length := by
  induction xs with
  | nil => rfl
  | cons x xs ih =>
    cases isP : p x with
    | true => simp [isP, apart x isP, ← ih]; omega
    | false => cases isQ : q x <;> simp [isP, isQ, ← ih]; omega

theorem isMover_iff (r : PeerRow) : (notLost r && !r.isolated && underWay r.moveState) = decide (IsMover r) := by
  simp [notLost, underWay, bne, Bool.decide_and, Bool.and_assoc, beq_eq_decide]

theorem isWanter_iff (r : PeerRow) : (r.freshness == .fresh && !r.isolated && r.moveState == .want) = decide (IsWanter r) := by
  simp [Bool.decide_and, Bool.and_assoc, beq_eq_decide]

theorem lowerThanOwn_iff (s : State) (n : Nat) (r : PeerRow) : lowerThanOwn s (n, r) = decide (LowerKey s n r) := by
  simp [lowerThanOwn, keyLower, LowerKey, beq_eq_decide]

theorem claimants_eq (s : State) :
    claimants s = (rowsWhere s (fun n r => decide (IsMover r ∨ (IsWanter r ∧ LowerKey s n r)))).length := by
  have apart (x : Nat × PeerRow) (mover : (notLost x.2 && !x.2.isolated && underWay x.2.moveState) = true) :
      (lowerThanOwn s x && (x.2.freshness == .fresh && !x.2.isolated && x.2.moveState == .want)) = false := by
    simp only [underWay, Bool.and_eq_true, Bool.or_eq_true, beq_iff_eq] at mover
    rcases mover with ⟨-, warns | moves⟩
    · simp [warns]
    · simp [moves]
  rw [claimants, movers, wanters, List.filter_filter, length_filter_add _ _ _ apart, ← List.length_map (f := Prod.fst)]
  refine congrArg List.length (peerRows_filter_map s _ _ fun n r => ?_)
  rw [isMover_iff, isWanter_iff, lowerThanOwn_iff]
  simp only [Bool.decide_or, Bool.decide_and, Bool.and_comm]

theorem yieldCount_eq (s : State) : yieldCount s = (rowsWhere s (fun n r => decide (IsMover r ∧ LowerKey s n r))).length := by
  rw [yieldCount, movers, List.filter_filter, ← List.length_map (f := Prod.fst)]
  refine congrArg List.length (peerRows_filter_map s _ _ fun n r => ?_)
  rw [isMover_iff, lowerThanOwn_iff]
  simp only [Bool.decide_and, Bool.and_comm]

/-- The largest of some values, from a first one on. -/
theorem foldl_max {α : Type} (xs : List α) (f : α → Nat) (first : Nat) :
    (first ≤ xs.foldl (fun m x => max m (f x)) first ∧ ∀ x ∈ xs, f x ≤ xs.foldl (fun m x => max m (f x)) first) ∧
      (xs.foldl (fun m x => max m (f x)) first = first ∨ ∃ x ∈ xs, f x = xs.foldl (fun m x => max m (f x)) first) := by
  induction xs generalizing first with
  | nil => exact ⟨⟨Nat.le_refl _, fun x mem => by cases mem⟩, .inl rfl⟩
  | cons y ys ih =>
    obtain ⟨⟨above, all⟩, reached⟩ := ih (max first (f y))
    rw [List.foldl_cons]
    refine ⟨⟨by omega, fun x mem => ?_⟩, ?_⟩
    · rcases List.mem_cons.mp mem with rfl | later
      · omega
      · exact all x later
    · rcases reached with same | ⟨x, mem, value⟩
      · rcases Nat.le_total (f y) first with le | le
        · exact .inl (same.trans (max_eq_left le))
        · exact .inr ⟨y, by simp, (same.trans (max_eq_right le)).symm⟩
      · exact .inr ⟨x, List.mem_cons_of_mem y mem, value⟩

theorem mem_ticketed {s : State} {n : Nat} {r : PeerRow} :
    (n, r) ∈ (peerRows s).filter (fun x => notLost x.2 && x.2.moveState != .still) ↔
      (n < 16 ∧ contentAt n s = some r) ∧ r.freshness ≠ .lost ∧ r.moveState ≠ .still := by
  simp [List.mem_filter, mem_peerRows, notLost]

theorem grantLookups (s : State) : GrantLookups s := by
  obtain ⟨⟨-, all⟩, reached⟩ := foldl_max ((peerRows s).filter (fun x => notLost x.2 && x.2.moveState != .still)) (fun x => x.2.ticket) 0
  refine ⟨claimants_eq s, yieldCount_eq s, fun n r small row kept moving => all (n, r) (mem_ticketed.mpr ⟨⟨small, row⟩, kept, moving⟩), ?_⟩
  rcases reached with zero | ⟨⟨n, r⟩, mem, value⟩
  · exact .inl zero
  · obtain ⟨⟨small, row⟩, kept, moving⟩ := mem_ticketed.mp mem
    exact .inr ⟨n, r, small, row, kept, moving, value⟩

theorem admissionIs (img : Image) (s : State) : AdmissionIs img s := by
  unfold AdmissionIs admission
  cases established : s.position.established with
  | false => simp
  | true =>
    simp only [Bool.not_true, Bool.false_eq_true, Bool.true_eq_false, if_false]
    cases s.modeCtl.mode with
    | auto => cases haltInForce s <;> cases condition .alone s <;> simp
    | storm => simp [bypassLead]
    | maint => simp [bypassLead]
    | _ => rfl

theorem haltIs (s : State) : HaltIs s := by
  unfold HaltIs haltInForce
  cases s.order.adopted with
  | none => simp
  | some o => simp

/-! ### The evaluation -/

theorem startPump_eq (s : State) : startPump s = s.withGrant { s.grant with pumpTimer := some (s.grant.pumpTimer.getD 0) } := by
  unfold startPump
  cases timer : s.grant.pumpTimer with
  | none => rfl
  | some t =>
    refine (if_neg (by simp)).trans ?_
    rw [Option.getD_some, ← timer]
    rfl

/-- While no PUMP fault stops the station, the pump timer is all that the judgement finds started. -/
theorem judgePump_started {img : Image} {s : State} (same : (judgePump img (startPump s)).modeCtl.mode = s.modeCtl.mode) :
    (judgePump img (startPump s)).grant = { s.grant with pumpTimer := some (s.grant.pumpTimer.getD 0) } := by
  have started : (startPump s).grant = { s.grant with pumpTimer := some (s.grant.pumpTimer.getD 0) } := by rw [startPump_eq]; rfl
  unfold judgePump at same ⊢
  split at same
  · next waits =>
    rw [if_pos waits]
    rcases raise_moves [.pump] (startPump s) with ⟨raised, -⟩ | ⟨serves, faulted⟩
    · rw [raised]
      exact started
    · rw [startPump_modeCtl, ← same, faulted] at serves
      cases serves
  · next waits =>
    rw [if_neg waits]
    exact started

theorem proceed_waits {img : Image} {pumpReady : Bool} {s : State}
    (early : ∀ age, s.grant.warnTimer = some age → age < s.grant.warnLead) : proceed img pumpReady s = s := by
  refine if_pos ?_
  cases timer : s.grant.warnTimer with
  | none => rfl
  | some age => simp [elapsed, Nat.not_le.mpr (early age timer)]

theorem elapsed_of_some {timer : Option Nat} {age limit : Nat} (runs : timer = some age) (enough : limit ≤ age) : elapsed timer limit = true := by
  rw [runs]
  exact decide_eq_true enough

/-- A claim that goes on in WARN (R97, R98). -/
theorem claimProceeds {img : Image} {pumpReady : Bool} {s : State} (same : (proceed img pumpReady s).modeCtl.mode = s.modeCtl.mode) :
    ClaimProceeds pumpReady s.grant (proceed img pumpReady s).grant := by
  refine ⟨fun early => by rw [proceed_waits early], fun age timer enough => ?_⟩
  rw [proceed_of_elapsed img pumpReady (elapsed_of_some timer enough)] at same ⊢
  cases pumpReady with
  | true => rfl
  | false => exact judgePump_started same

theorem evalGrant_of_still (img : Image) (pumpReady : Bool) {s : State} (stands : s.grant.moveState = .still) :
    evalGrant img pumpReady s = evalStill img s := by simp only [evalGrant, stands]

theorem evalGrant_of_want (img : Image) (pumpReady : Bool) {s : State} (wants : s.grant.moveState = .want) :
    evalGrant img pumpReady s = evalWant img s := by simp only [evalGrant, wants]

theorem withdrawn_iff {img : Image} {s : State} : withdrawn img s = true ↔ s.target.offTarget = false ∨ admission img s ≠ .throughGrant := by
  simp [withdrawn]

theorem standStill_claim (s : State) : (standStill s).grant = claimStill s.grant ∧ (standStill s).target = s.target :=
  ⟨by rw [standStill_grant], standStill_target s⟩

/-- The Grant Unit's evaluation of a claim in STILL (R91). -/
theorem evalStill_evaluated (img : Image) (s : State) :
    (s.target.offTarget = false ∨ admission img s = .refused → evalStill img s = s) ∧
      (s.target.offTarget = true → admission img s = .throughGrant → evalStill img s = enterWant s) ∧
      (∀ lead, s.target.offTarget = true → admission img s = .bypass lead →
        (evalStill img s).grant = claimWarn s.grant .bypass 0 lead ∧ (evalStill img s).target.limited = false) := by
  refine ⟨fun stays => ?_, fun off admits => ?_, fun lead off admits => ?_⟩
  · unfold evalStill
    rcases stays with level | refused
    · exact if_neg (by simp [level])
    · simp only [refused, ite_self]
  · simp only [evalStill, off, admits, if_true]
  · have bypassed : evalStill img s = setLimited false
        ((enterWarn .bypass lead s).withGrant { (enterWarn .bypass lead s).grant with ticket := 0 }) := by
      simp only [evalStill, off, admits, if_true]
    rw [bypassed]
    exact ⟨rfl, rfl⟩

/-- The Grant Unit's evaluation, while no fault of it stops the station (R91 to R100). -/
theorem claimEvaluated {img : Image} {pumpReady : Bool} {s : State} (same : (evalGrant img pumpReady s).modeCtl.mode = s.modeCtl.mode) :
    ClaimEvaluated img pumpReady s (evalGrant img pumpReady s).grant (evalGrant img pumpReady s).target.limited := by
  obtain ⟨stillGrant, stillTarget⟩ := standStill_claim s
  refine ⟨fun stands => ?_, fun claims unmoved => ?_, fun wants => ?_, fun warns bypass => ?_, fun warns granted => ?_, fun moves => ?_⟩
  · obtain ⟨stays, wants, bypasses⟩ := evalStill_evaluated img s
    rw [evalGrant_of_still img pumpReady stands]
    refine ⟨fun h => ?_, fun off admits => ?_, bypasses⟩
    · rw [stays h]
      exact ⟨rfl, rfl⟩
    · rw [wants off admits]
      exact ⟨rfl, rfl⟩
  · have kept {t : State} (target : t.target = s.target) : t.target.limited = s.target.limited := congrArg Target.limited target
    refine evalGrant_cases (Q := fun t => t.target.limited = s.target.limited) pumpReady rfl (kept stillTarget) (fun t moves => ?_)
      (kept ((judgePump_target img _).trans (by rw [startPump_eq]; rfl))) fun moves => absurd moves unmoved
    cases moves with
    | want stands => exact absurd stands claims
    | bypass _ stands => exact absurd stands claims
    | pumps => exact kept (by rw [startPump_eq]; rfl)
    | _ => rfl
  · rw [evalGrant_of_want img pumpReady wants, evalWant]
    refine ⟨fun drops => ?_, fun off admits => ⟨fun age timer early => ?_, fun age timer enough => ?_⟩⟩
    · rw [if_pos (withdrawn_iff.mpr drops), stillGrant]
    · rw [if_neg (by simp [withdrawn, off, admits]), if_pos (by simp [elapsed, timer, Nat.not_le.mpr early])]
    · rw [if_neg (by simp [withdrawn, off, admits]), if_neg (by simp [elapsed_of_some timer enough])]
      split <;> rfl
  · rw [evalGrant_of_warn img pumpReady warns] at same ⊢
    unfold evalWarn at same ⊢
    rw [if_pos bypass] at same ⊢
    refine ⟨fun level => ?_, fun off => ?_⟩
    · rw [if_pos (by simp [level]), stillGrant]
    · rw [if_neg (by simp [off])] at same ⊢
      exact claimProceeds same
  · rw [evalGrant_of_warn img pumpReady warns] at same ⊢
    unfold evalWarn at same ⊢
    rw [if_neg granted] at same ⊢
    refine ⟨fun drops => ?_, fun off admits => ?_⟩
    · rw [if_pos (withdrawn_iff.mpr drops), stillGrant]
    · rw [if_neg (by simp [withdrawn, off, admits])] at same ⊢
      refine ⟨fun many => by rw [if_pos many]; rfl, fun few => ?_⟩
      rw [if_neg (Nat.not_le.mpr few)] at same ⊢
      exact claimProceeds same
  · rw [evalGrant_of_moving img pumpReady moves] at same ⊢
    unfold evalMoving at same ⊢
    refine ⟨fun reached level => ?_, fun goesOn => ?_⟩
    · rw [if_pos (by simp [moveEnded, reached, level])]
      exact ⟨stillGrant, rfl⟩
    · have lasts : moveEnded s = false := by
        rcases goesOn with apart | off
        · simp [moveEnded, apart]
        · simp [moveEnded, off]
      rw [if_neg (by simp [lasts])] at same ⊢
      unfold pumpInMotion at same ⊢
      cases pumpReady with
      | true => exact ⟨rfl, rfl⟩
      | false =>
        refine ⟨judgePump_started same, ?_⟩
        exact congrArg Target.limited ((judgePump_target img _).trans (by rw [startPump_eq]; rfl))

/-! ### The rows of the timers -/

theorem standStill_of_unmoved {s : State} (unmoved : s.grant.moveState ≠ .moving) :
    standStill s =
      { s with
        grant := claimStill s.grant, modeCtl := { s.modeCtl with active := moveConditionsEnded s.modeCtl.active } } := by
  unfold standStill
  rw [if_neg unmoved]
  rfl

/-- A claim that is dropped before it moves (R89, R95). -/
theorem exec_drops {i : Instr} {s b : State} (unmoved : b.grant.moveState ≠ .moving) (h : effect i s = standStill b) :
    ∃ t, exec i s = .next t ∧ ClaimDropped b t := by
  rw [standStill_of_unmoved unmoved] at h
  exact exec_of_effect h

/-- The announce wait is judged at the tick at which it has passed (R95, log 26). -/
theorem effect_announceWait {img : Image} {s b : State} {age m : Nat} (serving : Serving s img) (wants : s.grant.moveState = .want)
    (timer : s.grant.announceTimer = some age) (tick : m = tickAfter s.clocks.grantAhead (img.params.announceWait - age) s)
    (moment : b = grantMoment m s) :
    b.grant.moveState = .want ∧
      effect .announceWait s =
        if withdrawn img s then standStill b
        else if claimants s < img.params.moveLimit then enterWarn .granted (img.params.warnLead * 1000) b
        else b := by
  obtain ⟨accepted, counts⟩ := serving
  have grant := grantMoment_grant (m := m) counts
  have waits : elapsed (grantMoment m s).grant.announceTimer img.params.announceWait = true := by
    rw [grant]
    exact elapsed_runTimer timer (tick ▸ tickAfter_reaches ..)
  have wantsB : (grantMoment m s).grant.moveState = .want := by rw [grant, wants]
  have evaluates : effect .announceWait s = evalGrant img false (grantMoment m s) := by
    rw [effect_of_accepted accepted rfl, wants, timer, tick]
    rfl
  have drops : withdrawn img (grantMoment m s) = withdrawn img s := by
    rw [withdrawn, withdrawn, grantMoment_target, grantMoment_admission]
  rw [moment]
  refine ⟨wantsB, ?_⟩
  rw [evaluates, evalGrant_of_want img false wantsB, evalWant, drops, grantMoment_claimants]
  simp only [waits, Bool.not_true, Bool.false_eq_true, if_false]

/-- The warning lead is judged at the tick at which it has passed (R96, R97, log 26). -/
theorem effect_warnLead {img : Image} {s b : State} {age m : Nat} (ready : Bool) (serving : Serving s img) (warns : s.grant.moveState = .warn)
    (timer : s.grant.warnTimer = some age) (tick : m = tickAfter s.clocks.grantAhead (s.grant.warnLead - age) s)
    (moment : b = grantMoment m s) :
    b.grant.moveState = .warn ∧
      (s.target.offTarget = false ∨ (s.grant.moveKind ≠ .bypass ∧ admission img s ≠ .throughGrant) →
        effect (.warnLead ready) s = standStill b) ∧
      (s.target.offTarget = true → s.grant.moveKind ≠ .bypass → admission img s = .throughGrant → img.params.moveLimit ≤ yieldCount s →
        effect (.warnLead ready) s = yieldClaim b) ∧
      (GoesOn img s → effect (.warnLead ready) s = if ready then enterMoving b else judgePump img (startPump b)) := by
  obtain ⟨accepted, counts⟩ := serving
  have grant := grantMoment_grant (m := m) counts
  have warnsB : (grantMoment m s).grant.moveState = .warn := by rw [grant, warns]
  have kindB : (grantMoment m s).grant.moveKind = s.grant.moveKind := by rw [grant]
  have leads : elapsed (grantMoment m s).grant.warnTimer (grantMoment m s).grant.warnLead = true := by
    rw [grant]
    exact elapsed_runTimer timer (tick ▸ tickAfter_reaches ..)
  have evaluates : effect (.warnLead ready) s = evalWarn img ready (grantMoment m s) := by
    rw [effect_of_accepted accepted rfl, warns, timer]
    refine Eq.trans ?_ (evalGrant_of_warn img ready warnsB)
    rw [tick]
    rfl
  rw [moment, evaluates]
  refine ⟨warnsB, fun drops => ?_, fun off granted admits many => ?_, fun goesOn => ?_⟩
  · unfold evalWarn
    rw [kindB, grantMoment_target, withdrawn, grantMoment_target, grantMoment_admission]
    rcases drops with level | ⟨granted, refused⟩
    · simp [level]
    · simp [granted, refused]
  · unfold evalWarn
    rw [kindB, withdrawn, grantMoment_target, grantMoment_admission, grantMoment_yieldCount]
    simp [granted, off, admits, many]
  · rw [evalWarn_of_goesOn ((goesOn_grantMoment counts).mpr goesOn), proceed_of_elapsed img ready leads]

/-- A pump timer short of its limit is not judged (R97). -/
theorem judgePump_waits {img : Image} {s : State} (early : s.grant.pumpTimer.getD 0 < img.params.pumpWait * 1000) :
    judgePump img (startPump s) = s.withGrant { s.grant with pumpTimer := some (s.grant.pumpTimer.getD 0) } := by
  rw [startPump_eq]
  refine if_neg ?_
  simp [elapsed, Nat.not_le.mpr early]

/-! ### A tick -/

/-- The blocks after the Grant Unit leave its claim and LIMITED while the mode stays. -/
theorem foldl_evalBlock_claim {img : Image} {inputs : TickInputs} {bs : List Block} {s : State} (once : bs.Nodup) (other : .grant ∉ bs)
    (same : (bs.foldl (fun t d => evalBlock img inputs d t) s).modeCtl.mode = s.modeCtl.mode) :
    (bs.foldl (fun t d => evalBlock img inputs d t) s).grant = s.grant ∧
      (bs.foldl (fun t d => evalBlock img inputs d t) s).target.limited = s.target.limited := by
  refine foldl_evalBlock_moves img inputs (R := fun t u => u.grant = t.grant ∧ u.target.limited = t.target.limited) once same
    (fun _ => ⟨rfl, rfl⟩) (fun _ _ _ ⟨h, l⟩ ⟨h', l'⟩ => ⟨h'.trans h, l'.trans l⟩) fun c mem t u moves => ?_
  cases c with
  | grant => exact absurd mem other
  | position => rw [show u = _ from moves]; exact ⟨rfl, rfl⟩
  | mode => rw [show u = _ from moves]; exact ⟨rfl, rfl⟩
  | target => rw [show u = _ from moves]; exact ⟨rfl, rfl⟩
  | drive => rw [show u = _ from moves]; exact ⟨rfl, rfl⟩
  | plan => rw [show u = _ from moves]; exact ⟨rfl, rfl⟩

/-- Settles O47: the lookups, the rows of the announce wait and the warning lead by the tick that judges them, and the Grant Unit's turn. -/
theorem claimAdvancesAtItsTimers : Obligations.ClaimAdvancesAtItsTimers := by
  refine ⟨fun s img => ⟨admissionIs img s, haltIs s, grantLookups s⟩, fun s b img age m serving => ⟨fun wants timer tick moment => ?_,
    fun warns timer tick moment => ?_⟩, fun inputs s b img ⟨accepted, _⟩ behind isB => ?_⟩
  · rw [← tickAfter_eq] at tick
    obtain ⟨wantsB, evaluates⟩ := effect_announceWait serving wants timer tick moment
    have ticket : b.grant.ticket = s.grant.ticket := by rw [show b = grantMoment m s from moment, grantMoment_grant serving.2]
    refine ⟨fun drops => exec_drops (by rw [wantsB]; decide) ?_, fun off admits few => ?_, fun off admits many => ?_⟩
    · rw [evaluates, if_pos (withdrawn_iff.mpr drops)]
    · rw [if_neg (by simp [withdrawn, off, admits]), if_pos few] at evaluates
      rw [← ticket]
      exact exec_of_effect evaluates
    · rw [if_neg (by simp [withdrawn, off, admits]), if_neg (Nat.not_lt.mpr many)] at evaluates
      exact exec_of_effect evaluates
  · rw [← tickAfter_eq] at tick
    have lead (ready : Bool) := effect_warnLead ready serving warns timer tick moment
    refine ⟨fun ready drops => ?_, fun ready off granted admits many => ?_, fun off goesOn => ⟨?_, fun early => ?_⟩⟩
    · obtain ⟨warnsB, dropped, -, -⟩ := lead ready
      exact exec_drops (by rw [warnsB]; decide) (dropped drops)
    · obtain ⟨-, -, yielded, -⟩ := lead ready
      exact exec_of_effect (yielded off granted admits many)
    · obtain ⟨-, -, -, goes⟩ := lead true
      exact exec_of_effect (goes ⟨off, goesOn⟩)
    · obtain ⟨-, -, -, goes⟩ := lead false
      have waits := goes ⟨off, goesOn⟩
      rw [if_neg Bool.false_ne_true, judgePump_waits early] at waits
      exact exec_of_effect waits
  · obtain ⟨t, run, frame, -⟩ := exec_of_effect (effect_controlTick (inputs := inputs) accepted .grant)
    have ahead : b.clocks.grantAhead < 60 := by rw [isB, (atTurn_ahead img inputs .grant s).1 rfl]; exact behind
    obtain ⟨c, isC⟩ : ∃ c, c = setGrantAhead (b.clocks.grantAhead - Config.tickMs) b := ⟨_, rfl⟩
    have turned : evalBlock img inputs .grant b = evalGrant img inputs.pumpReady c := by
      rw [isC]
      exact unlessAhead_of_behind _ ahead
    have afterB : afterTurn img inputs .grant s = evalBlock img inputs .grant b := by rw [isB]; rfl
    rw [afterB] at frame
    refine ⟨t, run, fun mode => ?_⟩
    rw [frame] at mode
    have turnMode := mode_after_turn mode
    obtain ⟨grant, limited⟩ := foldl_evalBlock_claim (nodup_blocksAfter inputs .grant) (not_mem_blocksAfter inputs .grant)
      (mode.trans turnMode.symm)
    have grantT : t.grant = (evalGrant img inputs.pumpReady c).grant := by rw [frame, ← turned]; exact grant
    have limitedT : t.target.limited = (evalGrant img inputs.pumpReady c).target.limited := by rw [frame, ← turned]; exact limited
    rw [grantT, limitedT]
    have evaluated := claimEvaluated (img := img) (pumpReady := inputs.pumpReady) (s := c) (by rw [← turned, turnMode, isC]; rfl)
    rw [isC] at evaluated ⊢
    exact evaluated

end Sys2Proof.Proofs
end

section
/-! SUPPORT. A step of a plan that passes through DWELL and TIDE, at the row of its counter and at a control tick (O48). -/

namespace Sys2Proof.Proofs

open Sys2Proof.Machine Sys2Proof.Safety

/-! ### The end of a step -/

/-- What an operation of the Plan Sequencer does to the Mode Controller: nothing, but for the PLAN_BAD of a plan that fails (R129, R130). -/
def PlanBadEnds (s t : State) : Prop :=
  (t.plan.state ≠ .failed → t.modeCtl = s.modeCtl) ∧
    (t.plan.state = .failed →
      condition .planBad t = false ∧ (condition .planBad s = false → t.modeCtl.latched = addFault .planBad s.modeCtl.latched))

theorem planBadEnds_of_live {s t : State} (live : t.plan.state ≠ .failed) (modes : t.modeCtl = s.modeCtl) : PlanBadEnds s t :=
  ⟨fun _ => modes, fun failed => absurd failed live⟩

theorem planBadEnds_refill {s : State} {img : Image} (accepted : acceptedImage s = some img) (running : s.plan.state = .running) :
    PlanBadEnds s (refill s) := by
  obtain ⟨fills, fails⟩ := refill_cases accepted running
  cases run : refillLoop img refillFuel s.plan with
  | some p =>
    rw [fills p run]
    refine planBadEnds_of_live ?_ rfl
    rw [State.withPlan_plan, refillLoop_frame _ run]
    simp [running]
  | none =>
    obtain ⟨plan, -, inactive, latched⟩ := failPlan_cases s
    rw [fails run]
    exact ⟨fun live => absurd (by rw [plan]) live, fun _ => ⟨inactive, latched⟩⟩

theorem planBadEnds_takeStep {s : State} {img : Image} (accepted : acceptedImage s = some img) (running : s.plan.state = .running) :
    PlanBadEnds s (takeStep s) := by
  have live : s.plan.state ≠ .failed := by rw [running]; decide
  simp only [takeStep, accepted]
  split
  · split
    · exact planBadEnds_refill (s := beginStep img _ _ s) accepted running
    · split
      · exact planBadEnds_of_live (by simp [endPlan]) rfl
      · exact planBadEnds_of_live live rfl
  · exact planBadEnds_of_live live rfl

/-- What a step of a RUNNING plan does as it reaches DONE (R137). -/
theorem stepDone_finished {s : State} {img : Image} {i : Nat} (accepted : acceptedImage s = some img) (running : s.plan.state = .running)
    (current : s.plan.current = some i) (noHalt : haltInForce s = false) :
    StepFinished img s i { s.plan with phase := .done } (stepDone img s).plan (stepDone img s).target.stepStart ∧
      (stepDone img s).tide = s.tide ∧ PlanBadEnds s (stepDone img s) ∧
      ((stepAt img i).last = false → (stepAt img i).holdPoint = false ∨ s.plan.finishAtHold = false → (stepDone img s).line.mark = true) := by
  cases last : (stepAt img i).last with
  | true =>
    have ends : stepDone img s = endPlan .ended (s.withPlan { s.plan with phase := .done }) := by
      simp only [stepDone, current, last, if_true]
    rw [ends]
    refine ⟨⟨fun _ => ⟨rfl, rfl⟩, fun goesOn => ?_, fun goesOn => ?_⟩, rfl, planBadEnds_of_live (by simp [endPlan]) rfl, fun goesOn => ?_⟩
    · exact Bool.noConfusion (last.symm.trans goesOn)
    · exact Bool.noConfusion (last.symm.trans goesOn)
    · exact Bool.noConfusion goesOn
  | false =>
    by_cases holds : (stepAt img i).holdPoint = true ∧ s.plan.finishAtHold = true
    · have held : stepDone img s =
          s.withPlan { s.plan with state := .held, phase := .done, resume := some .next, finishAtHold := false } := by
        simp only [stepDone, current, last, holds.1, holds.2, Bool.and_self, Bool.false_eq_true, if_false, if_true]
      rw [held]
      refine ⟨⟨fun ends => ?_, fun _ _ _ => ⟨rfl, rfl⟩, fun _ passes => ?_⟩, rfl, planBadEnds_of_live (by simp) rfl, fun _ passes => ?_⟩
      · exact Bool.noConfusion (last.symm.trans ends)
      all_goals rcases passes with passes | passes <;> simp_all
    · have goesOn : stepDone img s = takeStep (setMark (s.withPlan { s.plan with phase := .done, current := none })) := by
        have passes : ((stepAt img i).holdPoint && s.plan.finishAtHold) = false := by
          rw [Bool.and_eq_false_iff]
          by_contra both
          simp only [not_or, Bool.not_eq_false] at both
          exact holds both
        simp only [stepDone, current, last, passes, Bool.false_eq_true, if_false]
      obtain ⟨q, isQ⟩ : ∃ q, q = setMark (s.withPlan { s.plan with phase := .done, current := none }) := ⟨_, rfl⟩
      have acceptedQ : acceptedImage q = some img := by rw [isQ]; exact accepted
      have runningQ : q.plan.state = .running := by rw [isQ]; exact running
      have taken := (takeStep_taken acceptedQ runningQ (by rw [isQ]; rfl) (by rw [isQ]; exact noHalt)).1
      have ends := planBadEnds_takeStep acceptedQ runningQ
      have tide : (takeStep q).tide = q.tide := takeStep_tide q
      have mark : (takeStep q).line.mark = q.line.mark := by rw [takeStep_line]
      rw [goesOn, ← isQ]
      rw [isQ] at taken tide ends mark
      refine ⟨⟨fun stops => ?_, fun _ point asked => absurd ⟨point, asked⟩ holds, fun _ _ => isQ ▸ taken⟩, isQ ▸ tide, isQ ▸ ends, fun _ _ => isQ ▸ mark⟩
      exact Bool.noConfusion (last.symm.trans stops)

/-! ### The phase TIDE -/

/-- A step that passes on: not the last, not held, and its tide not awaited (R136, R137). -/
abbrev StepPasses (img : Image) (i : Nat) (s : State) : Prop :=
  (stepAt img i).last = false ∧ ((stepAt img i).holdPoint = false ∨ s.plan.finishAtHold = false) ∧
    ((stepAt img i).tideWait = false ∨ s.tide.latch = true)

/-- What the Sequencer makes of a step in TIDE (R136), with the Mode Controller and the mark. -/
abbrev TideOutcome (img : Image) (i : Nat) (s t : State) : Prop :=
  TidePassed img s i s.plan t.plan t.tide t.target.stepStart ∧ PlanBadEnds s t ∧ (StepPasses img i s → t.line.mark = true)

theorem tidePhase_passed {s : State} {img : Image} {i : Nat} (accepted : acceptedImage s = some img) (running : s.plan.state = .running)
    (current : s.plan.current = some i) (noHalt : haltInForce s = false) : TideOutcome img i s (tidePhase img s) := by
  have live : s.plan.state ≠ .failed := by rw [running]; decide
  by_cases waits : (stepAt img i).tideWait = true
  · by_cases latched : s.tide.latch = true
    · obtain ⟨q, isQ⟩ : ∃ q, q = s.withTide { s.tide with latch := false, expected := otherKind s.tide.expected } := ⟨_, rfl⟩
      have takes : tidePhase img s = stepDone img q := by simp only [tidePhase, current, waits, latched, if_true, isQ]
      obtain ⟨finished, tide, ends, marks⟩ := stepDone_finished (s := q) (i := i) (by rw [isQ]; exact accepted) (by rw [isQ]; exact running)
        (by rw [isQ]; exact current) (by rw [isQ]; exact noHalt)
      rw [takes]
      refine ⟨⟨fun _ empty => Bool.noConfusion (latched.symm.trans empty), fun _ => ⟨?_, ?_⟩⟩, ?_, fun ⟨last, passes, _⟩ => ?_⟩
      · rw [tide, if_pos waits, isQ]
        cases s.tide.expected <;> rfl
      · rw [isQ] at finished ⊢
        exact finished
      · rw [isQ] at ends ⊢
        exact ends
      · exact marks last (by rw [isQ]; exact passes)
    · have stays : tidePhase img s = s := by simp only [tidePhase, current, waits, latched, if_true, Bool.false_eq_true, if_false]
      rw [stays]
      refine ⟨⟨fun _ _ => ⟨rfl, rfl, rfl⟩, fun passes => ?_⟩, planBadEnds_of_live live rfl, fun ⟨_, _, passes⟩ => ?_⟩
      all_goals exact absurd passes (by simp [waits, latched])
  · have done : tidePhase img s = stepDone img s := by simp only [tidePhase, current, waits, Bool.false_eq_true, if_false]
    obtain ⟨finished, tide, ends, marks⟩ := stepDone_finished accepted running current noHalt
    rw [done]
    refine ⟨⟨fun waited => absurd waited waits, fun _ => ⟨?_, finished⟩⟩, ends, fun ⟨last, passes, _⟩ => marks last passes⟩
    rw [tide, if_neg waits]

/-! ### The row of the dwell counter -/

/-- The dwell counter runs out at the tick to which the time runs on (R135, log 26). -/
theorem effect_dwellExpired {s b : State} {img : Image} {i m : Nat} (accepted : acceptedImage s = some img) (running : s.plan.state = .running)
    (dwells : s.plan.phase = .dwell) (current : s.plan.current = some i) (noHalt : haltInForce s = false)
    (tick : m = max (s.clocks.planAhead + 60) (60 * ((s.clocks.tick + 59) / 60)) + 60 * ((s.plan.dwell - 1) / 60))
    (moment : b = withPlanAhead m (elapse (m - s.clocks.tick) s)) :
    effect .dwellExpired s = tidePhase img (b.withPlan { b.plan with dwell := 0, phase := .tide }) := by
  have remaining : dwellRemaining s.plan.dwell = 60 * ((s.plan.dwell - 1) / 60) := Nat.mul_comm ..
  have atTick : tickAfter s.clocks.planAhead 0 s + dwellRemaining s.plan.dwell = m := by
    rw [tickAfter_eq, remaining, tick]
  have evaluates : effect .dwellExpired s = planAtTick img s := by
    rw [effect_of_accepted accepted rfl]
    exact if_pos ⟨running, dwells, by simp [current], noHalt⟩
  have planB : b.plan = s.plan := by rw [moment]; exact elapse_plan ..
  have haltB : haltInForce b = false := by
    rw [← noHalt, moment]
    exact haltInForce_elapse ..
  obtain ⟨c, isC⟩ : ∃ c, c = b.withPlan { b.plan with dwell := b.plan.dwell - dwellRemaining s.plan.dwell } := ⟨_, rfl⟩
  have starts : planAtTick img s = evalPlan img c := by
    rw [isC, moment]
    unfold planAtTick
    dsimp only
    rw [atTick]
    rfl
  have planC : c.plan = { s.plan with dwell := s.plan.dwell - 60 * ((s.plan.dwell - 1) / 60) } := by rw [isC, ← remaining, ← planB]; rfl
  have out : c.plan.dwell - Config.tickMs = 0 := by
    rw [planC]
    change s.plan.dwell - 60 * ((s.plan.dwell - 1) / 60) - 60 = 0
    omega
  have turn : c.plan.state = .running ∧ haltInForce c = false ∧ c.plan.current ≠ none := by
    rw [planC]
    refine ⟨running, ?_, by simp [current]⟩
    rw [isC]
    exact haltB
  have phase : c.plan.phase = .dwell := by rw [planC]; exact dwells
  rw [evaluates, starts, evalPlan, if_pos turn, phase]
  dsimp only
  rw [if_pos (by rw [State.withPlan_plan]; exact out), enterTide, out, isC]
  rfl

/-! ### The evaluation at a tick -/

theorem aimComplete_iff {s : State} :
    aimComplete s = true ↔
      s.grant.moveState = .still ∧ s.target.offTarget = false ∧ s.target.clamped = false ∧ s.plan.aimJudged = true := by
  simp [aimComplete, and_assoc]

/-- The Sequencer's evaluation (R123, R134 to R137, R144), and the mark of a step passed on. -/
theorem planEvaluated {s : State} {img : Image} (accepted : acceptedImage s = some img) :
    PlanEvaluated img s (evalPlan img s).plan (evalPlan img s).tide (evalPlan img s).target.stepStart ∧
      (StepPassesOn img s → (evalPlan img s).line.mark = true) := by
  by_cases turn : s.plan.state = .running ∧ haltInForce s = false ∧ s.plan.current ≠ none
  · obtain ⟨running, noHalt, named⟩ := turn
    obtain ⟨i, current⟩ := Option.ne_none_iff_exists'.mp named
    have inTide (q : Plan) (state : q.state = .running) (step : q.current = some i) :
        TideOutcome img i (s.withPlan q) (tidePhase img (s.withPlan q)) := tidePhase_passed accepted state step noHalt
    have same {j : Nat} (other : s.plan.current = some j) : j = i := Option.some.inj (other.symm.trans current)
    have idle {P : Prop} (h : s.plan.state ≠ .running ∨ haltInForce s = true ∨ s.plan.current = none) : P := by
      rcases h with h | h | h
      · exact absurd running h
      · exact Bool.noConfusion (noHalt.symm.trans h)
      · exact absurd h named
    have passesOn (h : StepPassesOn img s) : StepPasses img i s := by
      obtain ⟨-, -, ⟨j, step, last, point, wait⟩, -⟩ := h
      rw [same step] at last point wait
      exact ⟨last, point, wait⟩
    rw [evalPlan, if_pos ⟨running, noHalt, named⟩]
    cases phase : s.plan.phase with
    | aim =>
      dsimp only
      by_cases complete : aimComplete s = true
      · obtain ⟨stands, level, free, judged⟩ := aimComplete_iff.mp complete
        have open_ {P : Prop} (h : s.grant.moveState ≠ .still ∨ s.target.offTarget = true ∨ s.target.clamped = true ∨ s.plan.aimJudged = false) : P := by
          simp [stands, level, free, judged] at h
        rw [if_pos complete, enterDwell]
        by_cases zero : s.plan.dwell = 0
        · obtain ⟨passed, -, marks⟩ := inTide { s.plan with phase := .tide } running current
          rw [if_pos zero]
          refine ⟨⟨idle, fun j _ _ step => ⟨fun _ => ⟨open_, fun _ _ _ _ => ⟨fun long => by omega, fun _ => same step ▸ passed⟩⟩, fun p => ?_,
            fun p => ?_⟩⟩, fun h => marks (passesOn h)⟩
          all_goals cases phase.symm.trans p
        · rw [if_neg zero]
          refine ⟨⟨idle, fun j _ _ step => ⟨fun _ => ⟨open_, fun _ _ _ _ => ⟨fun _ => ⟨rfl, rfl, rfl⟩, fun short => absurd short zero⟩⟩, fun p => ?_,
            fun p => ?_⟩⟩, fun ⟨_, _, _, inPhase⟩ => ?_⟩
          · cases phase.symm.trans p
          · cases phase.symm.trans p
          · simp [phase, zero] at inPhase
      · rw [if_neg complete]
        refine ⟨⟨idle, fun j _ _ step => ⟨fun _ => ⟨fun _ => ⟨rfl, rfl, rfl⟩, fun stands level free judged => ?_⟩, fun p => ?_, fun p => ?_⟩⟩,
          fun ⟨_, _, _, inPhase⟩ => ?_⟩
        · exact absurd (aimComplete_iff.mpr ⟨stands, level, free, judged⟩) complete
        · cases phase.symm.trans p
        · cases phase.symm.trans p
        · rcases inPhase with p | ⟨p, -⟩ | ⟨-, -, stands, level, free, judged⟩
          · cases phase.symm.trans p
          · cases phase.symm.trans p
          · exact absurd (aimComplete_iff.mpr ⟨stands, level, free, judged⟩) complete
    | dwell =>
      dsimp only
      by_cases out : s.plan.dwell ≤ 60
      · have counted : s.plan.dwell - Config.tickMs = 0 := Nat.sub_eq_zero_of_le out
        obtain ⟨passed, -, marks⟩ := inTide { s.plan with dwell := 0, phase := .tide } running current
        rw [State.withPlan_plan, counted, if_pos rfl]
        refine ⟨⟨idle, fun j _ _ step => ⟨fun p => ?_, fun _ => ⟨fun long => by omega, fun _ => same step ▸ passed⟩, fun p => ?_⟩⟩,
          fun h => marks (passesOn h)⟩
        all_goals cases phase.symm.trans p
      · have counts : s.plan.dwell - Config.tickMs ≠ 0 := Nat.sub_ne_zero_of_lt (Nat.lt_of_not_le out)
        rw [State.withPlan_plan, if_neg counts]
        refine ⟨⟨idle, fun j _ _ step => ⟨fun p => ?_, fun _ => ⟨fun _ => ⟨rfl, rfl, rfl⟩, fun short => absurd short out⟩, fun p => ?_⟩⟩,
          fun ⟨_, _, _, inPhase⟩ => ?_⟩
        · cases phase.symm.trans p
        · cases phase.symm.trans p
        · simp [phase, out] at inPhase
    | tide =>
      obtain ⟨passed, -, marks⟩ := inTide s.plan running current
      dsimp only
      refine ⟨⟨idle, fun j _ _ step => ⟨fun p => ?_, fun p => ?_, fun _ => same step ▸ passed⟩⟩, fun h => marks (passesOn h)⟩
      all_goals cases phase.symm.trans p
    | done =>
      refine ⟨⟨idle, fun j _ _ step => ⟨fun p => ?_, fun p => ?_, fun p => ?_⟩⟩, fun ⟨_, _, _, inPhase⟩ => ?_⟩
      · cases phase.symm.trans p
      · cases phase.symm.trans p
      · cases phase.symm.trans p
      · simp [phase] at inPhase
  · rw [evalPlan, if_neg turn]
    refine ⟨⟨fun _ => ⟨rfl, rfl, rfl⟩, fun i running noHalt current => ?_⟩, fun ⟨running, noHalt, ⟨i, current, _⟩, _⟩ => ?_⟩
    all_goals exact absurd ⟨running, noHalt, by simp [current]⟩ turn

theorem exec_marks {i : Instr} {s t : State} (run : exec i s = .next t) (marked : (effect i s).line.mark = true) : MarkedOrReported t := by
  rw [exec_eq_effect] at run
  obtain rfl := Host.Outcome.next.inj run
  exact markedOrReported_of_mark marked

/-- A mark set on the way to a line changes nothing of what may be reported from it. -/
theorem reported_of_marks {l l' l'' : Line} (marks : MarkOnly l l') (h : Reported l' l'') : Reported l l'' := by
  rcases marks with same | marked
  · rw [same] at h
    exact h
  · rw [marked] at h
    exact h

theorem acceptedImage_atTurn (img : Image) (inputs : TickInputs) (b : Block) (s : State) :
    acceptedImage (atTurn img inputs b s) = acceptedImage s := by
  refine foldl_evalBlock_keeps (P := fun t => acceptedImage t = acceptedImage s) ?_ fun c _ t h =>
    (acceptedImage_congr (evalBlock_loader img inputs c t)).trans h
  refine (acceptedImage_congr (s := elapse (Config.tickMs - s.clocks.tick) s) ?_).trans (acceptedImage_elapse ..)
  unfold tickBegins
  rw [endOpenReads_loader, nextTick_loader]
  rfl

/-- What the blocks after the Plan Sequencer do to plan, tide and step start opening (R71, R80). -/
abbrev PlanRests (s t : State) : Prop :=
  t.plan = { s.plan with aimJudged := t.plan.aimJudged } ∧ t.tide = s.tide ∧
    (t.position.established = s.position.established ∧ t.position.opening = s.position.opening) ∧
    (t.target.stepStart = s.target.stepStart ∨
      (s.target.stepStart = .pending ∧ s.position.established = true ∧ t.target.stepStart = .recorded s.position.opening))

theorem planRests_trans {s t u : State} (h : PlanRests s t) (g : PlanRests t u) : PlanRests s u := by
  obtain ⟨plan, tide, ⟨established, opening⟩, start⟩ := h
  obtain ⟨plan', tide', ⟨established', opening'⟩, start'⟩ := g
  refine ⟨by rw [plan', plan], tide'.trans tide, ⟨established'.trans established, opening'.trans opening⟩, ?_⟩
  rcases start' with same' | ⟨pending', here', records'⟩
  · exact start.imp same'.trans fun ⟨pending, here, records⟩ => ⟨pending, here, same'.trans records⟩
  · rcases start with same | ⟨-, -, records⟩
    · exact .inr ⟨same.symm.trans pending', established ▸ here', opening ▸ records'⟩
    · rw [records] at pending'
      cases pending'

theorem stepStartNow_cases (s : State) :
    stepStartNow s = s.target.stepStart ∨
      (s.target.stepStart = .pending ∧ s.position.established = true ∧ stepStartNow s = .recorded s.position.opening) := by
  unfold stepStartNow
  split
  · next records => exact .inr ⟨records.1, records.2, rfl⟩
  · exact .inl rfl

/-- Settles O48: the row of the dwell counter by the tick that judges it, and the Plan Sequencer's turn with what the blocks after it leave. -/
theorem expiredDwellPassesToTide : Obligations.ExpiredDwellPassesToTide := by
  refine ⟨fun s b img i m ⟨accepted, _⟩ running dwells current noHalt tick moment => ?_, fun inputs s b img ⟨accepted, _⟩ behind isB => ?_⟩
  · have effects := effect_dwellExpired accepted running dwells current noHalt tick moment
    obtain ⟨t, run, frame, reported⟩ := exec_of_effect effects
    have planB : b.plan = s.plan := by rw [moment]; exact elapse_plan ..
    have tideB : b.tide = s.tide := by rw [moment]; exact elapse_tide ..
    have modesB : b.modeCtl.latched = s.modeCtl.latched := by
      rw [moment]
      change (elapse (m - s.clocks.tick) s).modeCtl.latched = _
      rw [elapse_modeCtl]
    have badB : condition .planBad b = condition .planBad s := by rw [moment]; exact condition_elapse ..
    have acceptedB : acceptedImage b = some img := by rw [moment, ← accepted]; exact acceptedImage_elapse ..
    have haltB : haltInForce b = false := by rw [moment, ← noHalt]; exact haltInForce_elapse ..
    obtain ⟨x, isX⟩ : ∃ x, x = b.withPlan { b.plan with dwell := 0, phase := .tide } := ⟨_, rfl⟩
    rw [← isX] at effects frame reported
    obtain ⟨passed, ⟨live, failed⟩, marks⟩ := tidePhase_passed (s := x) (i := i) (by rw [isX]; exact acceptedB)
      (by rw [isX]; exact planB ▸ running) (by rw [isX]; exact planB ▸ current) (by rw [isX]; exact haltB)
    have moves := tidePhase_moves img x
    have sets := (tidePhase_planOnly img x).1
    have line := tidePhase_marks img x
    rw [isX] at passed live failed marks moves sets line frame reported effects
    have planT : t.plan = (tidePhase img (b.withPlan { b.plan with dwell := 0, phase := .tide })).plan := by rw [frame]
    have modesT : t.modeCtl = (tidePhase img (b.withPlan { b.plan with dwell := 0, phase := .tide })).modeCtl := by rw [frame]
    refine ⟨t, run, ?_, fun passes => ?_, fun h => ?_, fun h => ?_, ?_, reported_of_marks line reported⟩
    · rw [frame]
      exact passed
    · obtain ⟨-, -, ⟨j, step, last, point, wait⟩, -⟩ := passes
      obtain rfl : j = i := Option.some.inj (step.symm.trans current)
      refine exec_marks run ?_
      rw [effects]
      exact marks ⟨last, planB ▸ point, tideB ▸ wait⟩
    · rw [modesT]
      exact live (planT ▸ h)
    · obtain ⟨inactive, latched⟩ := failed (planT ▸ h)
      rw [condition, modesT]
      exact ⟨inactive, fun before => modesB ▸ latched (badB.trans before)⟩
    · rw [frame, moves, sets]
      rfl
  · obtain ⟨t, run, frame, -⟩ := exec_of_effect (effect_controlTick (inputs := inputs) accepted .plan)
    have ahead : b.clocks.planAhead < 60 := by rw [isB, (atTurn_ahead img inputs .plan s).2.2 rfl]; exact behind
    obtain ⟨c, isC⟩ : ∃ c, c = setPlanAhead (b.clocks.planAhead - Config.tickMs) b := ⟨_, rfl⟩
    have turned : evalBlock img inputs .plan b = evalPlan img c := by
      rw [isC]
      exact unlessAhead_of_behind _ ahead
    have afterB : afterTurn img inputs .plan s = evalBlock img inputs .plan b := by rw [isB]; rfl
    have effects := effect_controlTick (inputs := inputs) accepted .plan
    rw [afterB, turned] at frame effects
    obtain ⟨evaluated, marks⟩ := planEvaluated (s := c) (img := img) (by rw [isC, ← accepted, isB]; exact acceptedImage_atTurn ..)
    rw [isC] at evaluated marks
    refine ⟨t, run, fun passes => exec_marks run ?_, fun mode => ?_⟩
    · rw [effects]
      refine foldl_evalBlock_keeps (P := fun u => u.line.mark = true) (isC ▸ marks passes) fun d _ u h => ?_
      rcases evalBlock_marks img inputs d u with same | marked
      · rw [same, h]
      · rw [marked]
    · rw [frame] at mode
      have turnMode := mode_after_turn (img := img) (inputs := inputs) (b := .plan) (s := b) (by rw [turned]; exact mode)
      rw [turned] at turnMode
      have rests : PlanRests (evalPlan img c) (restOfTick img inputs .plan (evalPlan img c)) := by
        refine foldl_evalBlock_moves img inputs (nodup_blocksAfter inputs .plan) (mode.trans turnMode.symm)
          (fun _ => ⟨rfl, rfl, ⟨rfl, rfl⟩, .inl rfl⟩) (fun _ _ _ => planRests_trans) fun d mem u w moves => ?_
        cases d with
        | plan => exact absurd mem (not_mem_blocksAfter inputs .plan)
        | position => rw [show w = _ from moves]; exact ⟨rfl, rfl, ⟨rfl, rfl⟩, .inl rfl⟩
        | mode => rw [show w = _ from moves]; exact ⟨rfl, rfl, ⟨rfl, rfl⟩, .inl rfl⟩
        | target =>
          rw [show w = _ from moves]
          exact ⟨rfl, rfl, ⟨rfl, rfl⟩, stepStartNow_cases u⟩
        | grant => rw [show w = _ from moves]; exact ⟨rfl, rfl, ⟨rfl, rfl⟩, .inl rfl⟩
        | drive => rw [show w = _ from moves]; exact ⟨rfl, rfl, ⟨rfl, rfl⟩, .inl rfl⟩
      obtain ⟨plan, tide, -, start⟩ := rests
      have planT : t.plan = (restOfTick img inputs .plan (evalPlan img c)).plan := by rw [frame]
      have tideT : t.tide = (restOfTick img inputs .plan (evalPlan img c)).tide := by rw [frame]
      have targetT : t.target = (restOfTick img inputs .plan (evalPlan img c)).target := by rw [frame]
      rw [evalPlan_position] at start
      refine ⟨(evalPlan img c).plan, (evalPlan img c).target.stepStart, ?_, ?_, ?_⟩
      · rw [tideT, tide, isC]
        exact evaluated
      · rw [planT]
        exact plan
      · rw [targetT]
        rw [isC] at start ⊢
        exact start

end Sys2Proof.Proofs
end

section
/-! SUPPORT. The Mode Controller's turn in a control tick, and what the blocks after it leave of what it makes (O45). -/

namespace Sys2Proof.Proofs

open Sys2Proof.Machine Sys2Proof.Safety

/-! ### What the sample makes stands -/

/-- Keys, inputs and storm conditions stay, and with them mode, clear timer and save, unless a stop-class kind that has entered the latched set
has taken the station to FAULT (R151, R161); what is latched stays latched, but for PLAN_BAD. -/
def ModesStand (m m' : ModeCtl) : Prop :=
  (m'.maintKey = m.maintKey ∧ m'.localKey = m.localKey ∧ m'.stormInput = m.stormInput ∧ m'.condOrder = m.condOrder ∧
      m'.condInput = m.condInput ∧ m'.condLevel = m.condLevel) ∧
    (∀ k, k ≠ .planBad → hasFault k m.latched = true → hasFault k m'.latched = true) ∧
    (m'.mode = m.mode ∧ m'.stormClear = m.stormClear ∧ m'.save = m.save ∨
      m'.mode = .fault ∧ ∃ k, isStopClass k = true ∧ hasFault k m'.latched = true ∧ hasFault k m.latched = false)

theorem stopClass_ne_planBad {k : FaultKind} (stop : isStopClass k = true) : k ≠ .planBad := by
  rintro rfl
  cases stop

theorem ModesStand.refl (m : ModeCtl) : ModesStand m m :=
  ⟨⟨rfl, rfl, rfl, rfl, rfl, rfl⟩, fun _ _ h => h, .inl ⟨rfl, rfl, rfl⟩⟩

theorem ModesStand.trans {a b c : ModeCtl} (h : ModesStand a b) (g : ModesStand b c) : ModesStand a c := by
  obtain ⟨⟨maint, loc, input, condOrder, condInput, condLevel⟩, latched, moves⟩ := h
  obtain ⟨⟨maint', loc', input', condOrder', condInput', condLevel'⟩, latched', moves'⟩ := g
  refine ⟨⟨maint'.trans maint, loc'.trans loc, input'.trans input, condOrder'.trans condOrder, condInput'.trans condInput,
    condLevel'.trans condLevel⟩, fun k other held => latched' k other (latched k other held), ?_⟩
  rcases moves' with ⟨mode', clear', save'⟩ | ⟨fault', k, stop, holds, free⟩
  · rcases moves with ⟨mode, clear, save⟩ | ⟨fault, k, stop, holds, free⟩
    · exact .inl ⟨mode'.trans mode, clear'.trans clear, save'.trans save⟩
    · exact .inr ⟨mode'.trans fault, k, stop, latched' k (stopClass_ne_planBad stop) holds, free⟩
  · refine .inr ⟨fault', k, stop, holds, ?_⟩
    by_contra held
    rw [Bool.not_eq_false] at held
    exact Bool.noConfusion (free.symm.trans (latched k (stopClass_ne_planBad stop) held))

theorem modesStand_of_sets {m m' : ModeCtl} (frame : SetsOnly m m')
    (latched : ∀ k, k ≠ .planBad → hasFault k m.latched = true → hasFault k m'.latched = true) : ModesStand m m' := by
  refine ⟨?_, latched, .inl ?_⟩
  · rw [frame]
    exact ⟨rfl, rfl, rfl, rfl, rfl, rfl⟩
  · rw [frame]
    exact ⟨rfl, rfl, rfl⟩

theorem modesStand_planOnly {m m' : ModeCtl} (h : PlanOnly m m') : ModesStand m m' :=
  modesStand_of_sets h.1 fun k other held => (h.2 k other).2.trans held

theorem modesStand_of_active {m : ModeCtl} (active : FaultSet) : ModesStand m { m with active := active } :=
  modesStand_of_sets rfl fun _ _ h => h

/-- A plan that is HELD stays so at its resume point. -/
abbrev HoldStays (p p' : Plan) : Prop := p.state = .held → p'.state = .held ∧ p'.resume = p.resume

/-- What the blocks after the Mode Controller's turn leave. -/
def SampleStands (s t : State) : Prop := ModesStand s.modeCtl t.modeCtl ∧ t.order = s.order ∧ HoldStays s.plan t.plan

theorem SampleStands.refl (s : State) : SampleStands s s := ⟨.refl _, rfl, fun h => ⟨h, rfl⟩⟩

theorem SampleStands.trans {s t u : State} (h : SampleStands s t) (g : SampleStands t u) : SampleStands s u := by
  obtain ⟨modes, order, holds⟩ := h
  obtain ⟨modes', order', holds'⟩ := g
  refine ⟨modes.trans modes', order'.trans order, fun held => ?_⟩
  obtain ⟨state, resume⟩ := holds held
  obtain ⟨state', resume'⟩ := holds' state
  exact ⟨state', resume'.trans resume⟩

theorem sampleStands_of_modes {s t : State} (modes : ModesStand s.modeCtl t.modeCtl) (order : t.order = s.order) (plan : t.plan = s.plan) :
    SampleStands s t := ⟨modes, order, fun h => by rw [plan]; exact ⟨h, rfl⟩⟩

theorem sampleStands_of_frame {s t : State} (modes : t.modeCtl = s.modeCtl) (order : t.order = s.order) (plan : t.plan = s.plan) :
    SampleStands s t := sampleStands_of_modes (by rw [modes]; exact .refl _) order plan

theorem sampleStands_standStill (s : State) : SampleStands s (standStill s) :=
  sampleStands_of_modes (by rw [standStill_modeCtl]; exact modesStand_of_active _) (by simp) (by simp)

theorem planHeld_holds (p : Plan) : HoldStays p (planHeld p) := fun held => by
  have same : planHeld p = p := if_neg (by rw [held]; decide)
  rw [same]
  exact ⟨held, rfl⟩

theorem sampleStands_raise (ks : List FaultKind) (s : State) : SampleStands s (raise ks s) := by
  have latches : ∀ k, hasFault k s.modeCtl.latched = true → hasFault k (latchKinds ks s).modeCtl.latched = true := fun k held => by
    rw [hasFault_latchKinds_latched, held, Bool.true_or]
  unfold raise
  split
  · next enters =>
    simp only [Bool.and_eq_true, List.any_eq_true] at enters
    obtain ⟨-, k, enters, stop⟩ := enters
    obtain ⟨becomes, free⟩ := mem_enteringLatched.mp enters
    have holds : hasFault k (latchKinds ks s).modeCtl.latched = true := by
      rw [hasFault_latchKinds_latched, decide_eq_true becomes, Bool.or_true]
    rw [enterMode_fault_eq]
    refine ⟨⟨⟨rfl, rfl, rfl, rfl, rfl, rfl⟩, fun k _ => latches k, .inr ⟨rfl, k, stop, holds, free⟩⟩, rfl, fun held => ?_⟩
    dsimp only
    split
    · exact planHeld_holds s.plan held
    · exact ⟨held, rfl⟩
  · exact sampleStands_of_modes (modesStand_of_sets rfl fun k _ => latches k) rfl rfl

theorem sampleStands_evalGrant (img : Image) (pumpReady : Bool) (s : State) : SampleStands s (evalGrant img pumpReady s) := by
  have started : SampleStands s (startPump s) := by
    rw [startPump_eq]
    exact sampleStands_of_frame rfl rfl rfl
  refine evalGrant_cases pumpReady (.refl s) (sampleStands_standStill s) (fun t moves => ?_) (started.trans ?_) fun _ limited =>
    (sampleStands_standStill s).trans (sampleStands_of_frame rfl rfl rfl)
  · cases moves with
    | pumps => exact started
    | _ => exact sampleStands_of_frame rfl rfl rfl
  · unfold judgePump
    split
    · exact sampleStands_raise _ _
    · exact .refl _

theorem sampleStands_evalDrive (img : Image) (readbackL readbackR : Half) (s : State) :
    SampleStands s (evalDrive img readbackL readbackR s) := by
  rw [evalDrive_eq, clearSkew_driven]
  exact .trans (sampleStands_of_modes (modesStand_of_active _) rfl rfl) (sampleStands_raise _ _)

theorem sampleStands_evalPlan (img : Image) (s : State) : SampleStands s (evalPlan img s) := by
  refine ⟨modesStand_planOnly (evalPlan_planOnly img s), evalPlan_order img s, fun held => ?_⟩
  have rests : evalPlan img s = s := if_neg fun turn => by
    rw [held] at turn
    cases turn.1
  rw [rests]
  exact ⟨held, rfl⟩

/-- What the Mode Controller's sample makes stands through the other blocks. -/
theorem sampleStands_evalBlock (img : Image) (inputs : TickInputs) {c : Block} (s : State) (other : c ≠ .mode) :
    SampleStands s (evalBlock img inputs c s) := by
  cases c with
  | mode => exact absurd rfl other
  | position => exact sampleStands_of_frame rfl rfl rfl
  | target => exact ⟨.refl _, rfl, fun h => ⟨h, rfl⟩⟩
  | grant =>
    have turned : SampleStands s (setGrantAhead (s.clocks.grantAhead - Config.tickMs) s) := sampleStands_of_frame rfl rfl rfl
    exact unlessAhead_cases _ turned (turned.trans (sampleStands_evalGrant img _ _))
  | drive =>
    have turned : SampleStands s (setDriveAhead (s.clocks.driveAhead - Config.tickMs) s) := sampleStands_of_frame rfl rfl rfl
    exact unlessAhead_cases _ turned (turned.trans (sampleStands_evalDrive img _ _ _))
  | plan =>
    have turned : SampleStands s (setPlanAhead (s.clocks.planAhead - Config.tickMs) s) := sampleStands_of_frame rfl rfl rfl
    exact unlessAhead_cases _ turned (turned.trans (sampleStands_evalPlan img _))

theorem sampleStands_rest (img : Image) (inputs : TickInputs) (s : State) : SampleStands s (restOfTick img inputs .mode s) :=
  foldl_evalBlock_keeps (P := SampleStands s) (.refl s) fun _ mem t h =>
    h.trans (sampleStands_evalBlock img inputs t fun eq => not_mem_blocksAfter inputs .mode (eq ▸ mem))

/-! ### The claim after the sample -/

/-- Under HALT in AUTO a claim that stands STILL stays so (R90). -/
theorem haltStays_evalBlock {img : Image} {inputs : TickInputs} {c : Block} {s : State} (other : c ≠ .mode)
    (halted : s.modeCtl.mode = .fault ∨ (s.modeCtl.mode = .auto ∧ haltInForce s = true ∧ s.grant.moveState = .still)) :
    (evalBlock img inputs c s).modeCtl.mode = .fault ∨
      ((evalBlock img inputs c s).modeCtl.mode = .auto ∧ haltInForce (evalBlock img inputs c s) = true ∧
        (evalBlock img inputs c s).grant.moveState = .still) := by
  rcases halted with fault | ⟨auto, halt, still⟩
  · exact .inl (evalBlock_fault img inputs c fault)
  rcases evalBlock_mode img inputs (s := s) other with ⟨same, moves⟩ | ⟨-, faulted⟩
  · have halt' : haltInForce (evalBlock img inputs c s) = true := by
      rw [← halt]
      exact haltInForce_congr (congrArg OrderUnit.adopted (sampleStands_evalBlock img inputs s other).2.1) (evalBlock_loader ..)
    refine .inr ⟨same.trans auto, halt', ?_⟩
    by_cases grants : c = .grant
    · subst grants
      refine unlessAhead_cases (Q := fun t => t.grant.moveState = .still) _ still ?_
      obtain ⟨u, isU⟩ : ∃ u, u = setGrantAhead (s.clocks.grantAhead - Config.tickMs) s := ⟨_, rfl⟩
      have refused : admission img u = .refused := by
        have is : AdmissionIs img u := admissionIs img u
        rw [is, isU]
        have autoU : (setGrantAhead (s.clocks.grantAhead - Config.tickMs) s).modeCtl.mode = .auto := auto
        have haltU : haltInForce (setGrantAhead (s.clocks.grantAhead - Config.tickMs) s) = true := halt
        rw [autoU, haltU]
        simp
      have stillU : u.grant.moveState = .still := by rw [isU]; exact still
      rw [← isU, evalGrant_of_still img inputs.pumpReady stillU, (evalStill_evaluated img u).1 (.inr refused), stillU]
    · by_cases drives : c = .drive
      · subst drives
        rw [show evalBlock img inputs .drive s = _ from moves]
        exact still
      · rw [(blockMoves_claim grants drives moves).1]
        exact still
  · exact .inl faulted

/-- A claim without a grant: none, or of bypass where it warns (R91, R101). -/
def Ungranted (g : Grant) : Prop := g.moveKind ≠ .granted ∧ g.moveState ≠ .want ∧ (g.moveState = .warn → g.moveKind = .bypass)

theorem ungranted_still (g : Grant) : Ungranted (claimStill g) := ⟨MoveKind.noConfusion, MoveState.noConfusion, fun h => by cases h⟩

theorem ungranted_evalGrant {img : Image} {pumpReady : Bool} {s : State} (mode : s.modeCtl.mode = .maint ∨ s.modeCtl.mode = .storm)
    (h : Ungranted s.grant) : Ungranted (evalGrant img pumpReady s).grant := by
  obtain ⟨kind, unwanted, warned⟩ := h
  have still : Ungranted (standStill s).grant := by rw [(standStill_claim s).1]; exact ungranted_still _
  have started : Ungranted (startPump s).grant := by rw [startPump_eq]; exact ⟨kind, unwanted, warned⟩
  have bypasses : admission img s ≠ .throughGrant := by
    rw [admission]
    split
    · decide
    · rcases mode with mode | mode <;> rw [mode] <;> exact Admission.noConfusion
  refine evalGrant_cases (Q := fun t => Ungranted t.grant) pumpReady ⟨kind, unwanted, warned⟩ still (fun t moves => ?_) ?_ fun _ _ => still
  · cases moves with
    | want _ admits => exact absurd admits bypasses
    | bypass lead => exact ⟨MoveKind.noConfusion, MoveState.noConfusion, fun _ => rfl⟩
    | warn lead wants => exact absurd wants unwanted
    | yields warns other => exact absurd (warned warns) other
    | pumps => exact started
    | pumped => exact ⟨kind, unwanted, warned⟩
    | moves => exact ⟨kind, MoveState.noConfusion, fun h => by cases h⟩
  · unfold judgePump raise
    split
    · split
      · rw [enterMode_fault_eq]
        exact ungranted_still _
      · exact started
    · exact started

theorem ungranted_evalBlock {img : Image} {inputs : TickInputs} {c : Block} {s : State} (other : c ≠ .mode)
    (h : s.modeCtl.mode = .fault ∨ ((s.modeCtl.mode = .maint ∨ s.modeCtl.mode = .storm) ∧ Ungranted s.grant)) :
    (evalBlock img inputs c s).modeCtl.mode = .fault ∨
      (((evalBlock img inputs c s).modeCtl.mode = .maint ∨ (evalBlock img inputs c s).modeCtl.mode = .storm) ∧
        Ungranted (evalBlock img inputs c s).grant) := by
  rcases h with fault | ⟨mode, claim⟩
  · exact .inl (evalBlock_fault img inputs c fault)
  rcases evalBlock_mode img inputs (s := s) other with ⟨same, moves⟩ | ⟨-, faulted⟩
  · refine .inr ⟨by rw [same]; exact mode, ?_⟩
    by_cases grants : c = .grant
    · subst grants
      exact unlessAhead_cases (Q := fun t => Ungranted t.grant) _ claim
        (ungranted_evalGrant (s := setGrantAhead (s.clocks.grantAhead - Config.tickMs) s) mode claim)
    · by_cases drives : c = .drive
      · subst drives
        rw [show evalBlock img inputs .drive s = _ from moves]
        exact claim
      · rw [(blockMoves_claim grants drives moves).1]
        exact claim
  · exact .inl faulted

/-- A claim that a transition into STORM or MAINT has treated has no grant (R101). -/
theorem ungranted_of_bypassed {lead : Nat} {b t : State} (bypassed : ClaimBypassed lead b t)
    (sound : b.grant.moveState = .still → b.grant.moveKind = .noClaim) : Ungranted t.grant := by
  obtain ⟨-, -, grant⟩ := bypassed
  rw [grant]
  cases state : b.grant.moveState with
  | still =>
    refine ⟨?_, ?_, fun h => ?_⟩
    · rw [sound state]; decide
    · dsimp only; rw [state]; decide
    · dsimp only at h; rw [state] at h; cases h
  | want => exact ungranted_still _
  | warn => exact ⟨MoveKind.noConfusion, by dsimp only; rw [state]; decide, fun _ => rfl⟩
  | moving => exact ⟨MoveKind.noConfusion, by dsimp only; rw [state]; decide, fun _ => rfl⟩

/-! ### What is before the sample, and what the tick leaves alone -/

theorem failOpenRead_frame (img : Image) (d : Side) (s : State) :
    failOpenRead img d s =
      { s with
        position := (failOpenRead img d s).position, modeCtl := (failOpenRead img d s).modeCtl, grant := (failOpenRead img d s).grant
        drive := (failOpenRead img d s).drive, plan := (failOpenRead img d s).plan } := by
  unfold failOpenRead endRead
  dsimp only
  split
  · split
    · rw [evaluatePosition_eq, raise_frame]
      rfl
    · rfl
  · rfl

theorem endOpenReads_order (img : Image) (s : State) : (endOpenReads img s).order = s.order := by
  unfold endOpenReads
  rw [failOpenRead_frame, failOpenRead_frame]

/-- The tick at its start: the time run on to it, the line's changes taken and the open reads ended (R2, log 1). -/
theorem tickBegins_frame (img : Image) (inputs : TickInputs) (s : State) :
    (tickBegins img inputs s).loader = (elapse (60 - s.clocks.tick) s).loader ∧
      (tickBegins img inputs s).level = (elapse (60 - s.clocks.tick) s).level ∧
      (tickBegins img inputs s).peers = (elapse (60 - s.clocks.tick) s).peers ∧
      (tickBegins img inputs s).order = (elapse (60 - s.clocks.tick) s).order ∧
      (tickBegins img inputs s).pending = (elapse (60 - s.clocks.tick) s).pending ∧
      (tickBegins img inputs s).line = takeChanges 0 inputs.line (elapse (60 - s.clocks.tick) s).line ∧
      (tickBegins img inputs s).clocks =
        { (elapse (60 - s.clocks.tick) s).clocks with tick := (elapse (60 - s.clocks.tick) s).clocks.tick - 60 } := by
  unfold tickBegins
  rw [endOpenReads_loader, endOpenReads_level, endOpenReads_peers, endOpenReads_order, endOpenReads_pending, endOpenReads_line,
    endOpenReads_clocks]
  exact ⟨rfl, rfl, rfl, rfl, rfl, rfl, rfl⟩

/-- The order that the Mode Controller's turn finds is that of the tick's start. -/
theorem atTurn_mode_order (img : Image) (inputs : TickInputs) (s : State) :
    (atTurn img inputs .mode s).order = (elapse (60 - s.clocks.tick) s).order := by
  have begins : (tickBegins img inputs s).order = (elapse (60 - s.clocks.tick) s).order := by
    obtain ⟨-, -, -, order, -⟩ := tickBegins_frame img inputs s
    exact order
  refine foldl_evalBlock_keeps (P := fun t => t.order = (elapse (60 - s.clocks.tick) s).order) begins fun c mem t h => ?_
  exact (sampleStands_evalBlock img inputs t (ne_of_mem_of_not_mem mem (not_mem_blocksBefore inputs .mode))).2.1.trans h

theorem elapse_lastCommand (dt : Nat) (s : State) : (elapse dt s).order.lastCommand = s.order.lastCommand := by
  unfold elapse
  split
  · rfl
  · unfold clockAfter
    rfl

/-- A block but the Position Unit leaves the position alone. -/
theorem evalBlock_position (img : Image) (inputs : TickInputs) {c : Block} (s : State) (other : c ≠ .position) :
    (evalBlock img inputs c s).position = s.position := by
  cases c with
  | position => exact absurd rfl other
  | mode => exact sampleKeys_position ..
  | target => rfl
  | grant => exact unlessAhead_cases (Q := fun t => t.position = s.position) _ rfl (by simp)
  | drive => exact unlessAhead_cases (Q := fun t => t.position = s.position) _ rfl (by simp)
  | plan => exact unlessAhead_cases (Q := fun t => t.position = s.position) _ rfl (by simp)

/-- A tick starts both reads and samples the limit switches (R2, R13). -/
theorem position_after_tick (img : Image) (inputs : TickInputs) (s : State) :
    (restOfTick img inputs .position (evalBlock img inputs .position s)).position =
      { startReads s.position with upperTaken := inputs.upperSwitch, lowerTaken := inputs.lowerSwitch } :=
  foldl_evalBlock_keeps
    (P := fun t => t.position = { startReads s.position with upperTaken := inputs.upperSwitch, lowerTaken := inputs.lowerSwitch })
    rfl fun _ mem t h =>
      (evalBlock_position img inputs t (ne_of_mem_of_not_mem mem (not_mem_blocksAfter inputs .position))).trans h

/-- The notes of evaluations ahead of the tick, after the turns of some blocks (log 26). -/
theorem foldl_evalBlock_clocks (img : Image) (inputs : TickInputs) {bs : List Block} (s : State) (once : bs.Nodup) :
    (bs.foldl (fun t c => evalBlock img inputs c t) s).clocks =
      { s.clocks with
        grantAhead := if .grant ∈ bs then s.clocks.grantAhead - 60 else s.clocks.grantAhead
        driveAhead := if .drive ∈ bs then s.clocks.driveAhead - 60 else s.clocks.driveAhead
        planAhead := if .plan ∈ bs then s.clocks.planAhead - 60 else s.clocks.planAhead } := by
  induction bs generalizing s with
  | nil => rfl
  | cons c cs ih =>
    obtain ⟨fresh, later⟩ := List.nodup_cons.mp once
    rw [List.foldl_cons, ih _ later, evalBlock_clocks]
    cases c <;> simp [fresh, Config.tickMs]

theorem evalTick_clocks (img : Image) (inputs : TickInputs) (s : State) :
    (evalTick img inputs s).clocks =
      { s.clocks with
        grantAhead := s.clocks.grantAhead - 60, driveAhead := s.clocks.driveAhead - 60, planAhead := s.clocks.planAhead - 60 } := by
  rw [evalTick, foldl_evalBlock_clocks img inputs s (bs := tickOrder inputs.order) (nodup_firstOnly _)]
  simp only [mem_tickOrder, if_true]

/-- A tick leaves loader, levels, peers and the queue alone. -/
theorem evalTick_frame (img : Image) (inputs : TickInputs) (s : State) :
    (evalTick img inputs s).loader = s.loader ∧ (evalTick img inputs s).level = s.level ∧ (evalTick img inputs s).peers = s.peers ∧
      (evalTick img inputs s).pending = s.pending :=
  foldl_evalBlock_keeps (P := fun t => t.loader = s.loader ∧ t.level = s.level ∧ t.peers = s.peers ∧ t.pending = s.pending)
    ⟨rfl, rfl, rfl, rfl⟩ fun _ _ _ ⟨loader, level, peers, pending⟩ =>
    ⟨(evalBlock_loader ..).trans loader, (evalBlock_level ..).trans level, (evalBlock_peers ..).trans peers, (evalBlock_pending ..).trans pending⟩

/-! ### The Mode Controller's turn -/

section
variable (maintKey localKey stormInput : Bool)

/-- The sample enters STORM from another mode under a storm demand alone (R149). -/
theorem demand_of_modeSampled {s : State} (changes : s.modeCtl.mode ≠ modeSampled maintKey localKey stormInput s)
    (storm : modeSampled maintKey localKey stormInput s = .storm) :
    (s.modeCtl.condOrder || stormInput || s.modeCtl.condLevel) = true := by
  rw [storm] at changes
  by_contra none
  rw [Bool.not_eq_true] at none
  unfold modeSampled at storm
  rw [none] at storm
  cases maintKey <;> cases localKey <;> cases mode : s.modeCtl.mode <;> simp [mode] at storm changes

/-- A sample that changes the mode takes the station to STORM, AUTO, LOCAL or MAINT (R149, R150). -/
theorem modeSampled_serves {s : State} (changes : s.modeCtl.mode ≠ modeSampled maintKey localKey stormInput s) :
    modeSampled maintKey localKey stormInput s = .storm ∨ modeSampled maintKey localKey stormInput s = .auto ∨
      modeSampled maintKey localKey stormInput s = .loc ∨ modeSampled maintKey localKey stormInput s = .maint := by
  generalize isNew : modeSampled maintKey localKey stormInput s = new at changes ⊢
  unfold modeSampled at isNew
  cases mode : s.modeCtl.mode <;> rw [mode] at isNew changes <;> dsimp only at isNew
  case start => exact absurd isNew changes
  case fault => exact absurd isNew changes
  case storm => exact absurd isNew changes
  all_goals
    subst isNew
    (repeat' split) <;> simp

theorem sampleKeys_of_changes {s : State} (changes : s.modeCtl.mode ≠ modeSampled maintKey localKey stormInput s) :
    sampleKeys maintKey localKey stormInput s =
      enterMode (modeSampled maintKey localKey stormInput s) (keysSampled maintKey localKey stormInput s) := by
  rw [sampleKeys_eq, if_neg changes]

theorem sampleKeys_of_stays {s : State} (stays : s.modeCtl.mode = modeSampled maintKey localKey stormInput s) :
    sampleKeys maintKey localKey stormInput s = keysSampled maintKey localKey stormInput s := by
  rw [sampleKeys_eq, if_pos stays]

theorem sampleKeys_mode (s : State) : (sampleKeys maintKey localKey stormInput s).modeCtl.mode = modeSampled maintKey localKey stormInput s := by
  rw [sampleKeys_eq]
  split
  · next stays => exact stays
  · exact (enterMode_fields ..).1

/-- The sample itself (R148). -/
theorem sampleKeys_sampled (s : State) :
    (sampleKeys maintKey localKey stormInput s).modeCtl.maintKey = maintKey ∧
      (sampleKeys maintKey localKey stormInput s).modeCtl.localKey = localKey ∧
      (sampleKeys maintKey localKey stormInput s).modeCtl.stormInput = stormInput ∧
      (sampleKeys maintKey localKey stormInput s).modeCtl.condInput = stormInput := by
  rw [sampleKeys_eq]
  split
  · exact ⟨rfl, rfl, rfl, rfl⟩
  · obtain ⟨frame, -⟩ := enterMode_faults (modeSampled maintKey localKey stormInput s) (keysSampled maintKey localKey stormInput s)
    rw [frame]
    exact ⟨rfl, rfl, rfl, rfl⟩

/-- The sample leaves the adopted order and the last command alone. -/
theorem sampleKeys_orders (s : State) :
    (sampleKeys maintKey localKey stormInput s).order.adopted = s.order.adopted ∧
      (sampleKeys maintKey localKey stormInput s).order.lastCommand = s.order.lastCommand := by
  rw [sampleKeys_eq]
  split
  · exact ⟨rfl, rfl⟩
  · rw [enterMode_adopted]
    exact ⟨rfl, rfl⟩

/-- The clear timer as the sample leaves it in STORM (R149, R156). -/
theorem sampleKeys_stormClear {s : State} (storm : modeSampled maintKey localKey stormInput s = .storm) :
    (sampleKeys maintKey localKey stormInput s).modeCtl.stormClear =
      if s.modeCtl.condOrder || stormInput || s.modeCtl.condLevel then none
      else if stormDemand s then some 0 else s.modeCtl.stormClear := by
  by_cases stays : s.modeCtl.mode = modeSampled maintKey localKey stormInput s
  · rw [sampleKeys_of_stays maintKey localKey stormInput stays, keysSampled]
    simp [stays.trans storm]
  · rw [sampleKeys_of_changes maintKey localKey stormInput stays, if_pos (demand_of_modeSampled maintKey localKey stormInput stays storm)]
    obtain ⟨-, -, clear, -⟩ :=
      enterMode_fields (modeSampled maintKey localKey stormInput s) (keysSampled maintKey localKey stormInput s)
    exact clear

/-- Entry into STORM takes the save (R155). -/
theorem sampleKeys_save {s : State} (changes : s.modeCtl.mode ≠ .storm) (storm : modeSampled maintKey localKey stormInput s = .storm)
    (unsaved : s.modeCtl.save = none) : (sampleKeys maintKey localKey stormInput s).modeCtl.save = some (planContext s) := by
  have enters : s.modeCtl.mode ≠ modeSampled maintKey localKey stormInput s := by rw [storm]; exact changes
  obtain ⟨-, -, -, save⟩ := enterMode_fields (modeSampled maintKey localKey stormInput s) (keysSampled maintKey localKey stormInput s)
  rw [sampleKeys_of_changes maintKey localKey stormInput enters, save, storm, saveAfter_storm,
    show (keysSampled maintKey localKey stormInput s).modeCtl.save = none from unsaved]
  rfl

/-- Leaving AUTO holds a RUNNING plan (R142). -/
theorem sampleKeys_plan_held {s : State} (auto : s.modeCtl.mode = .auto) (leaves : modeSampled maintKey localKey stormInput s ≠ .auto)
    (unsaved : s.modeCtl.save = none) : (sampleKeys maintKey localKey stormInput s).plan = planHeld s.plan := by
  have changes : s.modeCtl.mode ≠ modeSampled maintKey localKey stormInput s := by rw [auto]; exact leaves.symm
  rw [sampleKeys_of_changes maintKey localKey stormInput changes]
  have autoK : (keysSampled maintKey localKey stormInput s).modeCtl.mode = .auto := auto
  rcases modeSampled_serves maintKey localKey stormInput changes with storm | autos | keyed
  · obtain ⟨plan, -⟩ := enterMode_storm (keysSampled maintKey localKey stormInput s)
    rw [storm, plan, if_pos autoK]
    rfl
  · exact absurd autos leaves
  · obtain ⟨plan, -⟩ := enterMode_keyed_none keyed (s := keysSampled maintKey localKey stormInput s) unsaved
    rw [plan, planLeft, if_pos autoK]
    rfl

/-- The sample takes no kind but PLAN_BAD from the latched set. -/
theorem sampleKeys_latched {k : FaultKind} (other : k ≠ .planBad) {s : State} (held : hasFault k s.modeCtl.latched = true) :
    hasFault k (sampleKeys maintKey localKey stormInput s).modeCtl.latched = true := by
  rw [sampleKeys_eq]
  split
  · exact held
  · obtain ⟨-, latched, -⟩ := enterMode_faults (modeSampled maintKey localKey stormInput s) (keysSampled maintKey localKey stormInput s)
    exact (hasFault_of_dropFault_eq latched other).trans held

end

/-- What the Mode Controller's turn makes of plan and claim (R101, R142 to R145), with HALT as it is in force for the station. -/
theorem sampleKeys_transition {img : Image} {s : State} (maintKey localKey stormInput : Bool) {new : Mode} {halted : Prop}
    (accepted : acceptedImage s = some img) (isNew : new = modeSampled maintKey localKey stormInput s)
    (halts : halted ↔ haltInForce s = true) {m : State} (isM : m = sampleKeys maintKey localKey stormInput s) :
    (s.modeCtl.mode = new → m = keysSampled maintKey localKey stormInput s) ∧
      (s.modeCtl.mode ≠ new → new = .auto → PlanAtAutoEntry img s m) ∧
      (s.modeCtl.mode ≠ new → new = .storm → ClaimBypassed (img.params.warnLead * 1000) s m) ∧
      (s.modeCtl.mode ≠ new → new = .maint → ClaimBypassed 0 s m) ∧
      (s.modeCtl.mode ≠ new → new = .auto ∨ new = .loc → ClaimUnbypassed (new = .auto ∧ halted) s m) := by
  have acceptedK : acceptedImage (keysSampled maintKey localKey stormInput s) = some img := accepted
  have enters (changes : s.modeCtl.mode ≠ new) : m = enterMode new (keysSampled maintKey localKey stormInput s) := by
    rw [isM, isNew]
    exact sampleKeys_of_changes maintKey localKey stormInput (isNew ▸ changes)
  refine ⟨fun stays => ?_, fun changes auto => ?_, fun changes storm => ?_, fun changes maint => ?_, fun changes keyed => ?_⟩
  · rw [isM]
    exact sampleKeys_of_stays maintKey localKey stormInput (isNew ▸ stays)
  · have notAuto : (keysSampled maintKey localKey stormInput s).modeCtl.mode ≠ .auto := fun same => changes (same.trans auto.symm)
    rw [enters changes, auto]
    exact enterMode_auto_plan acceptedK notAuto
  · rw [enters changes, storm]
    exact enterMode_bypassed acceptedK (.inl rfl)
  · rw [enters changes, maint]
    exact enterMode_bypassed acceptedK (.inr rfl)
  · rw [enters changes, propext halts]
    exact enterMode_unbypassed (s := keysSampled maintKey localKey stormInput s) keyed

/-- The claim that an entry into AUTO leaves under HALT stands STILL. -/
theorem still_of_unbypassed {halted : Prop} {b t : State} (unbypassed : ClaimUnbypassed halted b t) (halts : halted) :
    t.grant.moveState = .still := by
  obtain ⟨-, stops, stays⟩ := unbypassed
  by_cases still : b.grant.moveState = .still
  · rw [(stays fun h => h.1 still).1, still]
  · rw [(stops ⟨still, .inl halts⟩).1]

/-- Settles O45: the Mode Controller's turn, what the blocks after it leave of what it makes, and what the tick leaves alone. -/
theorem controlTickSamplesInputs : Obligations.ControlTickSamplesInputs := by
  intro inputs s b c m img demand key new serving isB isC isM isDemand isKey isNewMode
  obtain ⟨accepted, counts⟩ := serving
  obtain ⟨t, run, frame, reported⟩ := exec_of_effect (effect_controlTick (inputs := inputs) accepted .mode)
  rw [← isM] at frame reported
  obtain ⟨u, isU⟩ : ∃ u, u = restOfTick img inputs .mode m := ⟨_, rfl⟩
  rw [← isU] at frame reported ⊢
  have isNew : new = modeSampled inputs.maintKey inputs.localKey inputs.stormInput c := by
    rw [isNewMode, isDemand, isKey]
    unfold modeSampled
    cases c.modeCtl.mode <;> rfl
  have turned : m = sampleKeys inputs.maintKey inputs.localKey inputs.stormInput c := by rw [isM, isC]; rfl
  have modeM : m.modeCtl.mode = new := by rw [turned, sampleKeys_mode, isNew]
  obtain ⟨maintM, localM, inputM, condM⟩ := sampleKeys_sampled inputs.maintKey inputs.localKey inputs.stormInput c
  rw [← turned] at maintM localM inputM condM
  have acceptedC : acceptedImage c = some img := by rw [isC, acceptedImage_atTurn, accepted]
  have orderC : c.order = b.order := by rw [isC, isB]; exact atTurn_mode_order img inputs s
  have haltC : haltInForce c = haltInForce s := by
    obtain ⟨loader, -⟩ := tickBegins_frame img inputs s
    have loaderC : c.loader = b.loader := by
      rw [isC, isB, ← loader]
      exact foldl_evalBlock_keeps (P := fun t => t.loader = (tickBegins img inputs s).loader) rfl fun c _ t h =>
        (evalBlock_loader ..).trans h
    rw [haltInForce_congr (congrArg OrderUnit.adopted orderC) loaderC, isB]
    exact haltInForce_elapse ..
  obtain ⟨stays, autoEntry, stormEntry, maintEntry, keyedEntry⟩ :=
    sampleKeys_transition inputs.maintKey inputs.localKey inputs.stormInput acceptedC isNew (by rw [haltC]) turned
  have stands : SampleStands m u := isU ▸ sampleStands_rest img inputs m
  obtain ⟨⟨⟨maintU, localU, inputU, -, condU, -⟩, -, modes⟩, orderU, holds⟩ := stands
  have modesT : t.modeCtl = u.modeCtl := by rw [frame]
  have planT : t.plan = u.plan := by rw [frame]
  have grantT : t.grant = u.grant := by rw [frame]
  have orderT : t.order = m.order := by rw [frame]; exact orderU
  have unfaulted (serves : t.modeCtl.mode ≠ .fault) :
      t.modeCtl.mode = m.modeCtl.mode ∧ t.modeCtl.stormClear = m.modeCtl.stormClear ∧ t.modeCtl.save = m.modeCtl.save := by
    rw [modesT] at serves ⊢
    exact modes.resolve_right fun ⟨fault, _⟩ => serves fault
  have stormM (storm : t.modeCtl.mode = .storm) : modeSampled inputs.maintKey inputs.localKey inputs.stormInput c = .storm := by
    obtain ⟨mode, -⟩ := unfaulted (by rw [storm]; decide)
    rw [← isNew, ← modeM, ← mode, storm]
  have autoM (auto : t.modeCtl.mode = .auto) : new = .auto := by
    obtain ⟨mode, -⟩ := unfaulted (by rw [auto]; decide)
    rw [← modeM, ← mode, auto]
  obtain ⟨adoptedM, commandM⟩ := sampleKeys_orders inputs.maintKey inputs.localKey inputs.stormInput c
  rw [← turned] at adoptedM commandM
  have adoptedT : t.order.adopted = s.order.adopted := by rw [orderT, adoptedM, orderC, isB, elapse_adopted]
  have commandT : t.order.lastCommand = s.order.lastCommand := by rw [orderT, commandM, orderC, isB, elapse_lastCommand]
  have whole : evalTick img inputs (tickBegins img inputs s) = u := by
    rw [isU, isM, evalTick_around img inputs .mode]
    rfl
  have position : t.position =
      { startReads (atTurn img inputs .position s).position with upperTaken := inputs.upperSwitch, lowerTaken := inputs.lowerSwitch } := by
    have same := (effect_controlTick (inputs := inputs) accepted .mode).symm.trans (effect_controlTick accepted .position)
    rw [← isM, ← isU] at same
    rw [frame]
    change u.position = _
    rw [same]
    exact position_after_tick img inputs _
  refine ⟨t, run, by rw [position]; rfl, by rw [position]; rfl, by rw [position], by rw [position], by rw [modesT, maintU, maintM],
    by rw [modesT, localU, localM], by rw [modesT, inputU, inputM], by rw [modesT, condU, condM], adoptedT, commandT, ?_,
    fun storm => ?_, fun other storm unsaved => ?_, fun auto leaves unsaved running => ?_, fun other auto => ?_, modeM,
    fun same => ?_, autoEntry, stormEntry, maintEntry, keyedEntry, frame, fun changes bypasses sound => ?_, ?_, ?_⟩
  · rw [modesT]
    rcases modes with ⟨mode, -⟩ | ⟨fault, k, stop, holds, free⟩
    · exact .inl (mode.trans modeM)
    · refine .inr ⟨fault, k, stop, holds, ?_⟩
      by_contra held
      rw [Bool.not_eq_false] at held
      have heldM := sampleKeys_latched inputs.maintKey inputs.localKey inputs.stormInput (stopClass_ne_planBad stop) held
      rw [← turned, free] at heldM
      cases heldM
  · obtain ⟨-, clear, -⟩ := unfaulted (by rw [storm]; decide)
    rw [clear, turned, sampleKeys_stormClear _ _ _ (stormM storm), isDemand]
  · obtain ⟨-, -, save⟩ := unfaulted (by rw [storm]; decide)
    rw [save, turned]
    exact sampleKeys_save _ _ _ other (stormM storm) unsaved
  · have planM : m.plan = planHeld c.plan := by
      rw [turned]
      exact sampleKeys_plan_held _ _ _ auto (isNew ▸ leaves) unsaved
    have held : planHeld c.plan = _ := if_pos running
    rw [held] at planM
    obtain ⟨state, resume⟩ := holds (by rw [planM])
    rw [planT, state, resume, planM]
    exact ⟨rfl, rfl⟩
  · have autoNew := autoM auto
    have changes : c.modeCtl.mode ≠ new := by rw [autoNew]; exact other
    obtain ⟨undeferred, -⟩ := autoEntry changes autoNew
    refine ⟨by rw [orderT, undeferred], fun halt => ?_⟩
    have still := still_of_unbypassed (keyedEntry changes (.inl autoNew)) ⟨autoNew, halt⟩
    have haltM : haltInForce m = true := by
      rw [← halt, ← haltC]
      exact haltInForce_congr adoptedM (by rw [isM, isC]; exact evalBlock_loader ..)
    have rests := foldl_evalBlock_keeps (img := img) (inputs := inputs) (bs := blocksAfter inputs .mode)
      (P := fun t => t.modeCtl.mode = .fault ∨ (t.modeCtl.mode = .auto ∧ haltInForce t = true ∧ t.grant.moveState = .still))
      (.inr ⟨modeM.trans autoNew, haltM, still⟩) fun _ mem _ =>
        haltStays_evalBlock (ne_of_mem_of_not_mem mem (not_mem_blocksAfter inputs .mode))
    rw [← restOfTick, ← isU, ← modesT, ← grantT] at rests
    rcases rests with fault | ⟨-, -, stillT⟩
    · rw [auto] at fault
      cases fault
    · exact stillT
  · rw [stays same]
    exact ⟨rfl, rfl, rfl, rfl, rfl, rfl⟩
  · have same : t.modeCtl.mode = new := by
      obtain ⟨mode, -⟩ := unfaulted (by rcases bypasses with mode | mode <;> rw [mode] <;> decide)
      exact mode.trans modeM
    rw [same] at changes bypasses
    have ungranted : Ungranted m.grant := by
      rcases bypasses with maint | storm
      · exact ungranted_of_bypassed (maintEntry changes maint) sound
      · exact ungranted_of_bypassed (stormEntry changes storm) sound
    have rests := foldl_evalBlock_keeps (img := img) (inputs := inputs) (bs := blocksAfter inputs .mode)
      (P := fun t => t.modeCtl.mode = .fault ∨ ((t.modeCtl.mode = .maint ∨ t.modeCtl.mode = .storm) ∧ Ungranted t.grant))
      (.inr ⟨by rw [modeM]; exact bypasses, ungranted⟩) fun _ mem _ =>
        ungranted_evalBlock (ne_of_mem_of_not_mem mem (not_mem_blocksAfter inputs .mode))
    rw [← restOfTick, ← isU, ← modesT, ← grantT, same] at rests
    rcases rests with fault | ⟨-, kind, -⟩
    · rw [fault] at bypasses
      rcases bypasses with bypasses | bypasses <;> cases bypasses
    · exact kind
  · obtain ⟨loader, level, peers, pending⟩ := evalTick_frame img inputs (tickBegins img inputs s)
    have clocks := evalTick_clocks img inputs (tickBegins img inputs s)
    obtain ⟨loaderB, levelB, peersB, -, pendingB, -, clocksB⟩ := tickBegins_frame img inputs s
    rw [whole, ← isB] at *
    rw [frame]
    exact state_ext (loader.trans loaderB) rfl (level.trans levelB) rfl (peers.trans peersB) rfl rfl rfl rfl rfl rfl rfl
      (clocks.trans (by rw [clocksB])) (pending.trans pendingB)
  · obtain ⟨-, -, -, -, -, line, -⟩ := tickBegins_frame img inputs s
    have marks := evalTick_marks img inputs (tickBegins img inputs s)
    rw [whole, line, ← isB] at marks
    exact reported_of_marks marks reported

end Sys2Proof.Proofs
end

section
/-! SUPPORT. An image that is accepted: its first samples, the first mode, and the tick that acceptance makes (O7). -/

namespace Sys2Proof.Proofs

open Sys2Proof.Machine Sys2Proof.Safety

/-! ### The first samples -/

/-- What a level sample leaves while no tide window is decided: levels, tide, conditions and fault sets aside, nothing moves (R16 to R25). -/
theorem sampleLevels_frame (img : Image) (up dn : Half) {s : State} (undecided : s.tide.window = .undecided) :
    sampleLevels img up dn s =
      { s with
        level := (sampleLevels img up dn s).level, tide := (sampleLevels img up dn s).tide
        modeCtl :=
          { s.modeCtl with
            active := (sampleLevels img up dn s).modeCtl.active, latched := (sampleLevels img up dn s).modeCtl.latched
            firstFault := (sampleLevels img up dn s).modeCtl.firstFault } } := by
  obtain ⟨k, isK⟩ : ∃ k, k = selectLevels (levelsJudged img up dn s) := ⟨_, rfl⟩
  have frame : k = { s with level := k.level, modeCtl := { s.modeCtl with
      active := k.modeCtl.active, latched := k.modeCtl.latched, firstFault := k.modeCtl.firstFault } } := by
    rw [isK, selectLevels, levelsJudged_frame]
    rfl
  have window : k.tide.window = .undecided := by rw [frame]; exact undecided
  have line : (evalTide img.params k).line = k.line := by
    obtain ⟨-, blind, seen⟩ := sampled_tide (p := img.params) (k := k) rfl
    cases head : k.level.head with
    | none => exact (blind head).2
    | some h => exact ((seen h 0 head).1 window).2
  rw [sampleLevels_eq, ← isK, evalTide_frame, line]
  generalize (evalTide img.params k).tide = tide
  rw [frame]

/-- The station in START with its first samples taken (R23, R148, R149; log 10), as the first mode finds it. -/
def firstSampled (img : Image) (inputs : TickInputs) (up dn : Half) (s : State) : State :=
  levelSample img up dn (sampleKeys inputs.maintKey inputs.localKey inputs.stormInput (holdImage img s))

theorem acceptImage_eq (img : Image) (inputs : TickInputs) (up dn : Half) (s : State) :
    acceptImage img inputs up dn s =
      evalTick img inputs (enterMode (firstMode (firstSampled img inputs up dn s)) (firstSampled img inputs up dn s)) := rfl

/-- The first samples move levels, tide, keys and conditions alone of a station in START that holds its image. -/
theorem firstSampled_frame {img : Image} {inputs : TickInputs} {up dn : Half} {s l : State} (modes : ModeAtReset s.modeCtl)
    (undecided : s.tide.window = .undecided) (isL : l = firstSampled img inputs up dn s) :
    l = { holdImage img s with level := l.level, tide := l.tide, modeCtl := l.modeCtl } ∧
      (l.modeCtl.mode = .start ∧ l.modeCtl.save = none) ∧
      (l.modeCtl.maintKey = inputs.maintKey ∧ l.modeCtl.localKey = inputs.localKey) ∧
      (l.modeCtl.condOrder = false ∧ l.modeCtl.condInput = inputs.stormInput ∧ l.modeCtl.condLevel = levelStorms img.params l) := by
  obtain ⟨mode, -, -, -, order, -, -, -, save, -⟩ := modes
  have start : (holdImage img s).modeCtl.mode = .start := mode
  obtain ⟨k, isK⟩ : ∃ k, k = sampleKeys inputs.maintKey inputs.localKey inputs.stormInput (holdImage img s) := ⟨_, rfl⟩
  have sampled := isK
  rw [sampleKeys_of_start _ _ _ start] at sampled
  have window : k.tide.window = .undecided := by rw [sampled]; exact undecided
  obtain ⟨x, isX⟩ : ∃ x, x = sampleLevels img up dn k := ⟨_, rfl⟩
  have frame := sampleLevels_frame img up dn window
  rw [← isX] at frame
  have startX : x.modeCtl.mode = .start := by rw [frame, sampled]; exact start
  have judged : l = conditionsSet x.modeCtl.condOrder x.modeCtl.condInput (levelStorms img.params x) x := by
    rw [isL, firstSampled, ← isK, ← setConditions_of_start _ _ _ startX, isX]
    rfl
  have level : levelStorms img.params l = levelStorms img.params x := by rw [judged]; rfl
  rw [level]
  rw [judged]
  refine ⟨?_, ⟨startX, ?_⟩, ⟨?_, ?_⟩, ?_, ?_, rfl⟩
  · rw [frame, sampled]
    rfl
  · rw [frame, sampled]; exact save
  · rw [frame, sampled]; rfl
  · rw [frame, sampled]; rfl
  · rw [frame, sampled]; exact order
  · rw [frame, sampled]; rfl

/-- The first mode (R149, R183), as a station without an order has it. -/
theorem firstMode_eq {s : State} (order : s.modeCtl.condOrder = false) :
    firstMode s =
      if s.modeCtl.maintKey then .maint
      else if s.modeCtl.condInput || s.modeCtl.condLevel then .storm else if s.modeCtl.localKey then .loc else .auto := by
  unfold firstMode keyMode stormDemand
  rw [order, Bool.false_or]
  cases s.modeCtl.maintKey <;> cases s.modeCtl.localKey <;> cases (s.modeCtl.condInput || s.modeCtl.condLevel) <;> rfl

/-- The sample of a tick leaves the first mode, whose sample it repeats (R149). -/
theorem modeSampled_firstMode {inputs : TickInputs} {s t : State}
    (keys : s.modeCtl.maintKey = inputs.maintKey ∧ s.modeCtl.localKey = inputs.localKey)
    (storm : s.modeCtl.condOrder = false ∧ s.modeCtl.condInput = inputs.stormInput) (mode : t.modeCtl.mode = firstMode s)
    (conditions : t.modeCtl.condOrder = s.modeCtl.condOrder ∧ t.modeCtl.condLevel = s.modeCtl.condLevel) :
    modeSampled inputs.maintKey inputs.localKey inputs.stormInput t = t.modeCtl.mode := by
  rw [firstMode_eq storm.1, keys.1, keys.2, storm.2] at mode
  unfold modeSampled
  rw [mode, conditions.1, conditions.2, storm.1, Bool.false_or]
  cases inputs.maintKey <;> cases inputs.localKey <;> cases (inputs.stormInput || s.modeCtl.condLevel) <;> rfl

/-! ### The first mode -/

/-- Entry into the first mode leaves claim, drive and plan at rest. -/
theorem enterMode_first {s : State} {img : Image} {new : Mode} (accepted : acceptedImage s = some img) (start : s.modeCtl.mode = .start)
    (unsaved : s.modeCtl.save = none) (still : s.grant.moveState = .still) (undeferred : s.order.deferred = false)
    (serves : new = .storm ∨ new = .auto ∨ new = .loc ∨ new = .maint) :
    (enterMode new s).grant = s.grant ∧ (enterMode new s).drive = s.drive ∧ (enterMode new s).plan = s.plan ∧
      (enterMode new s).order = s.order := by
  have notAuto : s.modeCtl.mode ≠ .auto := by rw [start]; decide
  obtain ⟨grant, drive⟩ := enterMode_still accepted still serves
  refine ⟨grant, drive, ?_⟩
  rcases serves with rfl | rfl | keyed
  · obtain ⟨plan, -, order, -⟩ := enterMode_storm s
    exact ⟨plan.trans (if_neg notAuto), order⟩
  · obtain ⟨deferred, -, r, ⟨-, order, -⟩, -, untouched, -, undetermined, -⟩ := enterMode_auto_plan accepted notAuto
    obtain ⟨planR, -⟩ := untouched unsaved
    obtain ⟨plan, -⟩ := undetermined undeferred
    refine ⟨plan.trans planR, ?_⟩
    rw [enterMode_adopted, deferred, ← undeferred]
  · obtain ⟨plan, -⟩ := enterMode_keyed_none keyed unsaved
    exact ⟨plan.trans (if_neg notAuto), (enterMode_keyed_latched keyed s).1⟩

/-! ### The tick of acceptance -/

/-- A station whose first tick finds nothing to do: no position established, no claim, no plan, the drive at rest, and a mode that the tick's
sample gives again. -/
def AtFirstTick (inputs : TickInputs) (e s : State) : Prop :=
  (s.modeCtl.mode = e.modeCtl.mode ∧ s.modeCtl.relay = e.modeCtl.relay ∧
      modeSampled inputs.maintKey inputs.localKey inputs.stormInput s = s.modeCtl.mode) ∧
    s.order = e.order ∧ s.grant = e.grant ∧ s.plan.state = .idle ∧
    (s.position.established = false ∧ s.position.skew = 0 ∧ s.position.upper = e.position.upper ∧ s.position.lower = e.position.lower) ∧
    s.drive.setpoint = e.drive.setpoint ∧ s.drive.codeL = nullCode .left s ∧ s.drive.codeR = nullCode .right s ∧
    s.drive.runL = 0 ∧ s.drive.runR = 0

theorem AtFirstTick.congr {inputs : TickInputs} {e s t : State} (h : AtFirstTick inputs e s) (loader : t.loader = s.loader)
    (modes : t.modeCtl.mode = s.modeCtl.mode ∧ t.modeCtl.relay = s.modeCtl.relay ∧ t.modeCtl.condOrder = s.modeCtl.condOrder ∧
      t.modeCtl.condLevel = s.modeCtl.condLevel)
    (order : t.order = s.order) (grant : t.grant = s.grant) (plan : t.plan.state = s.plan.state)
    (position : t.position.established = s.position.established ∧ t.position.skew = s.position.skew ∧
      t.position.upper = s.position.upper ∧ t.position.lower = s.position.lower)
    (drive : t.drive = s.drive) : AtFirstTick inputs e t := by
  obtain ⟨⟨mode, relay, sampled⟩, order', grant', plan', position', drive'⟩ := h
  obtain ⟨modeT, relayT, condOrder, condLevel⟩ := modes
  obtain ⟨established, skew, upper, lower⟩ := position
  refine ⟨⟨modeT.trans mode, relayT.trans relay, ?_⟩, order.trans order', grant.trans grant', plan.trans plan', ?_, ?_⟩
  · rw [← sampled.trans modeT.symm]
    unfold modeSampled
    rw [modeT, condOrder, condLevel]
  · rw [established, skew, upper, lower]
    exact position'
  · rw [drive, nullCode_congr .left loader, nullCode_congr .right loader]
    exact drive'

theorem AtFirstTick.frame {inputs : TickInputs} {e s t : State} (h : AtFirstTick inputs e s) (loader : t.loader = s.loader)
    (modes : t.modeCtl = s.modeCtl) (order : t.order = s.order) (grant : t.grant = s.grant) (plan : t.plan = s.plan)
    (position : t.position = s.position) (drive : t.drive = s.drive) : AtFirstTick inputs e t :=
  h.congr loader (by rw [modes]; exact ⟨rfl, rfl, rfl, rfl⟩) order grant (by rw [plan]) (by rw [position]; exact ⟨rfl, rfl, rfl, rfl⟩) drive

section
variable {inputs : TickInputs} {e s : State}

/-- Without a position a claim that stands STILL is not admitted (R90). -/
theorem AtFirstTick.evalGrant (img : Image) (pumpReady : Bool) (h : AtFirstTick inputs e s) (still : e.grant.moveState = .still) :
    AtFirstTick inputs e (evalGrant img pumpReady s) := by
  obtain ⟨-, -, grant, -, ⟨unestablished, -⟩, -⟩ := id h
  have stands : s.grant.moveState = .still := by rw [grant]; exact still
  have refused : admission img s = .refused := by
    unfold admission
    rw [unestablished]
    rfl
  obtain ⟨stays, -⟩ := evalStill_evaluated img s
  rw [evalGrant_of_still img pumpReady stands, stays (.inr refused)]
  exact h

/-- A gate that stands, level, with its valves where they are commanded shows no fault of the drive (R111 to R117). -/
theorem AtFirstTick.evalDrive (img : Image) (readbackL readbackR : Half) (h : AtFirstTick inputs e s) (still : e.grant.moveState = .still)
    (disabled : e.grant.driveEnable = false) : AtFirstTick inputs e (evalDrive img readbackL readbackR s) := by
  obtain ⟨modes, order, grant, plan, position, setpoint, codeL, codeR, runL, runR⟩ := id h
  have unmoved : (s.grant.moveState == .moving) = false := by rw [grant, still]; rfl
  have unchecked : checkReadback img readbackL readbackR s = s := if_neg (by rw [grant, disabled]; decide)
  have held : driven img readbackL readbackR s = s.withDrive (driveHeld s) := by
    unfold driven
    rw [unchecked, unmoved]
    rfl
  have faultless : driveFaults img false (driven img readbackL readbackR s) = [] := by
    simp [driveFaults, held, driveHeld, skewBeyond, position.2.1, runL, runR]
  rw [evalDrive_eq, unchecked, unmoved, Bool.false_and, faultless, raise_nil, clearSkew_driven, held]
  exact ⟨modes, order, grant, plan, position, setpoint, rfl, rfl, runL, runR⟩

/-- What the first tick's blocks keep. -/
theorem AtFirstTick.evalBlock (img : Image) (c : Block) (h : AtFirstTick inputs e s) (still : e.grant.moveState = .still)
    (disabled : e.grant.driveEnable = false) : AtFirstTick inputs e (evalBlock img inputs c s) := by
  cases c with
  | position => exact h.congr rfl ⟨rfl, rfl, rfl, rfl⟩ rfl rfl rfl ⟨rfl, rfl, rfl, rfl⟩ rfl
  | target => exact h.congr rfl ⟨rfl, rfl, rfl, rfl⟩ rfl rfl rfl ⟨rfl, rfl, rfl, rfl⟩ rfl
  | mode =>
    obtain ⟨⟨-, -, sampled⟩, -⟩ := id h
    have stays := sampleKeys_of_stays inputs.maintKey inputs.localKey inputs.stormInput sampled.symm
    rw [show Machine.evalBlock img inputs .mode s = _ from stays]
    exact h.congr rfl ⟨rfl, rfl, rfl, rfl⟩ rfl rfl rfl ⟨rfl, rfl, rfl, rfl⟩ rfl
  | grant =>
    have turned : AtFirstTick inputs e (setGrantAhead (s.clocks.grantAhead - Config.tickMs) s) := h.frame rfl rfl rfl rfl rfl rfl rfl
    exact unlessAhead_cases _ turned (turned.evalGrant img _ still)
  | drive =>
    have turned : AtFirstTick inputs e (setDriveAhead (s.clocks.driveAhead - Config.tickMs) s) := h.frame rfl rfl rfl rfl rfl rfl rfl
    exact unlessAhead_cases _ turned (turned.evalDrive img _ _ still disabled)
  | plan =>
    have turned : AtFirstTick inputs e (setPlanAhead (s.clocks.planAhead - Config.tickMs) s) := h.frame rfl rfl rfl rfl rfl rfl rfl
    have rests : evalPlan img (setPlanAhead (s.clocks.planAhead - Config.tickMs) s) = setPlanAhead (s.clocks.planAhead - Config.tickMs) s :=
      if_neg fun turn => by
        obtain ⟨-, -, -, idle, -⟩ := h
        rw [setPlanAhead_plan, idle] at turn
        cases turn.1
    exact unlessAhead_cases _ turned (by rw [rests]; exact turned)

end

/-! ### The acceptance -/

/-- What the first samples leave of a station in START whose read ends with an accepted image (R180, R183; log 10). -/
theorem firstSampled_rest {img : Image} {inputs : TickInputs} {up dn : Half} {s l : State} (start : InStart s)
    (isL : l = firstSampled img inputs up dn (hearLine inputs.line (attempted s))) :
    (acceptedImage l = some img ∧
        l.loader = { s.loader with image := .accepted img, attempts := s.loader.attempts + 1, reading := false }) ∧
      (l.position = s.position ∧ l.peers = s.peers ∧ l.order = s.order ∧ l.grant = s.grant ∧ l.plan = s.plan) ∧
      l.drive = { s.drive with codeL := nullCode .left l, codeR := nullCode .right l, setpoint := 0 } ∧
      (l.line.sending = none ∧ 50 ≤ l.line.gapTimer ∧ l.line.causeToCarry = some s.loader.cause ∧ l.line.lineSilent = 0) := by
  obtain ⟨⟨-, -, closed, -⟩, ⟨-, -, -, undecided, -⟩, -, -, -, -, -, modes, ⟨-, -, -, -, silent, -, -, -, -, -, gap, -, cause⟩, -⟩ := start
  obtain ⟨a, isA⟩ : ∃ a, a = hearLine inputs.line (attempted s) := ⟨_, rfl⟩
  rw [← isA] at isL
  obtain ⟨frame, -⟩ := firstSampled_frame (s := a) (by rw [isA]; exact modes) (by rw [isA]; exact undecided) isL
  have codes (d : Side) : nullCode d l = nullCode d (a.withLoader { a.loader with image := .accepted img }) :=
    nullCode_congr d (by rw [frame]; rfl)
  have drive : l.drive =
      { s.drive with codeL := nullCode .left l, codeR := nullCode .right l, setpoint := s.position.opening * 1000 } := by
    rw [codes, codes, frame, isA]
    rfl
  have heard : a.line = takeChanges 0 inputs.line s.line := by rw [isA]; rfl
  have line : l.line = { a.line with lineSilent := 0 } := by rw [frame]; rfl
  rw [closed, Nat.zero_mul] at drive
  refine ⟨⟨by rw [frame]; rfl, by rw [frame, isA]; rfl⟩, by rw [frame, isA]; exact ⟨rfl, rfl, rfl, rfl, rfl⟩, drive, ?_⟩
  rw [line, heard, takeChanges_eq]
  exact ⟨silent, gap, cause, rfl⟩

/-- A station that has entered its first mode is at its first tick. -/
theorem atFirstTick_of_entry {img : Image} {inputs : TickInputs} {up dn : Half} {s l e : State} (start : InStart s)
    (isL : l = firstSampled img inputs up dn (hearLine inputs.line (attempted s))) (isE : e = enterMode (firstMode l) l) :
    AtFirstTick inputs e e ∧ e.modeCtl.mode = firstMode l ∧ e.modeCtl.relay = true ∧ e.grant = s.grant ∧ e.order = s.order ∧
      e.position = s.position ∧ e.drive.setpoint = 0 := by
  obtain ⟨⟨-, -, -, skew, unestablished, -⟩, ⟨-, -, -, undecided, -⟩, ⟨-, -, undeferred⟩, -, ⟨still, -⟩, ⟨-, -, -, -, -, -, runL, runR, -⟩,
    ⟨idle, -⟩, modes, -⟩ := id start
  obtain ⟨-, ⟨startL, unsaved⟩, keys, ⟨order, input, -⟩⟩ :=
    firstSampled_frame (s := hearLine inputs.line (attempted s)) modes undecided isL
  obtain ⟨⟨accepted, -⟩, ⟨positionL, -, orderL, grantL, planL⟩, driveL, -⟩ := firstSampled_rest start isL
  have serves : firstMode l = .storm ∨ firstMode l = .auto ∨ firstMode l = .loc ∨ firstMode l = .maint := by
    rcases firstMode_cases l with ⟨storm, -⟩ | ⟨key, -⟩
    · exact .inl storm
    · exact .inr (key ▸ keyMode_mem l)
  obtain ⟨grantE, driveE, planE, orderE⟩ := enterMode_first accepted startL unsaved (by rw [grantL]; exact still)
    (by rw [orderL]; exact undeferred) serves
  obtain ⟨modeE, relayE, -⟩ := enterMode_fields (firstMode l) l
  obtain ⟨modesE, -⟩ := enterMode_faults (firstMode l) l
  have frameE := enterMode_frame (firstMode l) l
  rw [← isE] at grantE driveE planE orderE modeE relayE modesE frameE
  have loader : e.loader = l.loader := by rw [frameE]
  have position : e.position = s.position := by rw [frameE]; exact positionL
  have drive : e.drive = { s.drive with codeL := nullCode .left e, codeR := nullCode .right e, setpoint := 0 } := by
    rw [nullCode_congr .left loader, nullCode_congr .right loader]
    exact driveE.trans driveL
  have relay : relayIn (firstMode l) = true := by rcases serves with first | first | first | first <;> rw [first] <;> rfl
  have sampled := modeSampled_firstMode (inputs := inputs) keys ⟨order, input⟩ modeE (by rw [modesE]; exact ⟨rfl, rfl⟩)
  refine ⟨⟨⟨rfl, rfl, sampled⟩, rfl, rfl, by rw [planE, planL]; exact idle,
      ⟨by rw [position]; exact unestablished, by rw [position]; exact skew, rfl, rfl⟩, rfl, congrArg Drive.codeL drive,
      congrArg Drive.codeR drive, (congrArg Drive.runL drive).trans runL, (congrArg Drive.runR drive).trans runR⟩,
    modeE, relayE.trans relay, grantE.trans grantL, orderE.trans orderL, position, congrArg Drive.setpoint drive⟩

theorem levelStorms_congr {s t : State} (p : Params) (level : t.level = s.level) : levelStorms p t = levelStorms p s := by
  unfold levelStorms
  rw [level]

/-- A mark changes nothing of what a line is sending, its timers and its cause. -/
theorem markOnly_frame {l l' : Line} (marks : MarkOnly l l') : l' = { l with mark := l'.mark } := by
  rcases marks with same | marked
  · rw [same]
  · rw [marked]

/-- Settles O7: the first samples, the first mode, and the tick of acceptance, which leaves what they make; the mode's change is reported. -/
theorem acceptedImageStartsService : Obligations.AcceptedImageStartsService := by
  intro s bytes inputs up dn img start counts reading whole checked
  obtain ⟨l, isL⟩ : ∃ l, l = firstSampled img inputs up dn (hearLine inputs.line (attempted s)) := ⟨_, rfl⟩
  obtain ⟨e, isE⟩ : ∃ e, e = enterMode (firstMode l) l := ⟨_, rfl⟩
  obtain ⟨u, isU⟩ : ∃ u, u = evalTick img inputs e := ⟨_, rfl⟩
  have accepts : effect (.imageReadComplete bytes inputs up dn) s = u := by
    simp only [effect]
    rw [completeRead_of_reading reading whole, checked, isU, isE, isL]
    rfl
  obtain ⟨⟨-, loaderL⟩, ⟨-, peersL, -⟩, -, ⟨silent, gap, cause, fresh⟩⟩ := firstSampled_rest start isL
  obtain ⟨first, modeE, relayE, grantE, orderE, positionE, setpointE⟩ := atFirstTick_of_entry start isL isE
  obtain ⟨⟨-, -, -, -, -, upper, lower, -⟩, ⟨-, -, -, undecided, -⟩, ⟨noOrder, -⟩, -, ⟨still, -, -, -, -, -, -, -, disabled⟩, -, -, modes, -⟩ :=
    start
  obtain ⟨-, -, keys, ⟨order, input, storms⟩⟩ := firstSampled_frame (s := hearLine inputs.line (attempted s)) modes undecided isL
  have last : AtFirstTick inputs e u := by
    rw [isU]
    exact evalTick_keeps first fun c _ h => h.evalBlock img c (by rw [grantE]; exact still) (by rw [grantE]; exact disabled)
  obtain ⟨⟨modeU, relayU, -⟩, orderU, grantU, planU, ⟨-, -, upperU, lowerU⟩, setpointU, codeLU, codeRU, -⟩ := last
  obtain ⟨loaderU, levelU, peersU, -⟩ := evalTick_frame img inputs e
  have positionU := position_after_tick img inputs ((blocksBefore inputs .position).foldl (fun t c => evalBlock img inputs c t) e)
  have lineU := markOnly_frame (evalTick_marks img inputs e)
  rw [← evalTick_around img inputs .position e, ← isU] at positionU
  rw [← isU] at loaderU levelU peersU lineU
  have lineE : e.line = l.line := by rw [isE, enterMode_line]
  have loader : u.loader = { s.loader with image := .accepted img, attempts := s.loader.attempts + 1, reading := false } := by
    rw [loaderU, isE, enterMode_loader, loaderL]
  have level : u.level = l.level := by rw [levelU, isE, enterMode_level]
  have mode : u.modeCtl.mode =
      if inputs.maintKey then .maint
      else if inputs.stormInput || levelStorms img.params u then .storm else if inputs.localKey then .loc else .auto := by
    rw [modeU, modeE, firstMode_eq order, keys.1, keys.2, input, storms, levelStorms_congr _ level]
  have started : s.modeCtl.mode ≠ u.modeCtl.mode := by
    rw [modes.1, modeU, modeE]
    exact firstMode_ne.1.symm
  obtain ⟨t, f, run, frame, reported, slot, carries⟩ := exec_reports accepts (by simp [lineWorks, loader, counts])
    (by rw [lineU, lineE]; exact silent) (by rw [lineU, lineE]; exact gap) (by simp [reportedChange, started])
  have causeT : t.line.causeToCarry = some s.loader.cause := by rw [reported, lineU, lineE]; exact cause
  have levelT : levelStorms img.params t = levelStorms img.params u := levelStorms_congr _ (by rw [frame])
  refine ⟨t, f, run, by rw [frame, loader], by rw [frame, loader], by rw [levelT, frame]; exact mode, ?_, ?_, ?_, ?_, ?_, ?_, ?_, ?_, ?_, ?_,
    ?_, ?_, ?_, ?_, ?_, ?_, ?_, slot, carries, carries.1.1, ?_⟩
  · rw [frame]; exact relayU.trans relayE
  · rw [frame]; exact grantU.trans grantE
  · rw [frame]; exact planU
  · rw [frame]; exact congrArg (·.left.readTimer) positionU
  · rw [frame]; exact congrArg (·.right.readTimer) positionU
  · rw [frame]; exact congrArg Position.upperTaken positionU
  · rw [frame]; exact congrArg Position.lowerTaken positionU
  · rw [frame]; exact upperU.trans (by rw [positionE]; exact upper)
  · rw [frame]; exact lowerU.trans (by rw [positionE]; exact lower)
  · rw [frame]; exact congrArg OrderUnit.clockDay (orderU.trans orderE)
  · rw [frame]; exact congrArg OrderUnit.clockMs (orderU.trans orderE)
  · rw [frame]; exact setpointU.trans setpointE
  · rw [frame]; exact codeLU
  · rw [frame]; exact codeRU
  · rw [reported, lineU, lineE]; exact fresh
  · rw [frame]
    change u.peers = s.peers
    rw [peersU, isE, enterMode_peers, peersL]
  · rw [frame]
    change u.order.adopted = none
    rw [orderU, orderE, noOrder]
  · obtain ⟨-, -, -, -, -, -, -, -, -, -, -, -, -, -, carried⟩ := carries
    rw [carried, causeT]
    cases s.loader.cause <;> rfl

end Sys2Proof.Proofs
end
